-- ==== Sys2Proof/Word.lean ====
section
/-!
DEFINITION. Word.lean: the widths of the block's data (spec/00_scope.md R11, R13; spec/10_state.md).
-/

namespace Sys2Proof

/-- A byte, bit 7 the most significant (00_scope R13). -/
abbrev Byte := BitVec 8

/-- An operand or result field register: `FIELD_IN_W` = 32 bits (00_scope R11, 10_state R28, R31). -/
abbrev Word := BitVec 32

/-- The `repeats` operand of COMPILE: `REP_W` = 8 bits, unsigned (00_scope R11, 10_state R28). -/
abbrev Repeats := BitVec 8

/-- A duration in microseconds: `DUR_W` = 16 bits (00_scope R11, R18). -/
abbrev Dur := BitVec 16

/-- The ten bytes of a packet as its 80 bits: packet bit `k` is bit `79 - k` of this number, so that byte 0 is
the most significant byte (00_scope R14, 20_memory R67, 30_encoding R119). -/
abbrev Packet := BitVec 80

/-- A symbol code, one entry of the sequence memory (30_encoding R105). -/
abbrev SymCode := BitVec 3

/-- An operation code (30_encoding R109). -/
abbrev OpCode := BitVec 3

/-- An index into the sequence memory, `0 .. CAP` (10_state R35). -/
abbrev SeqIndex := BitVec 9

/-- One captured row: its bits, the first received first; its length is its bit count (44_matcher R205). -/
abbrev Row := List Bool

end Sys2Proof
end

