-- ==== Sys2Proof/Config.lean ====
section
/-!
DEFINITION. Config.lean: the implementation parameters of spec/00_scope.md R11 at their defaults, and the four
parameters the spec leaves OPEN as uninterpreted constants; `TIMING` and `LAYOUTS` stand in Machine/Tables.lean. No
operation writes any of them (10_state R26, R42).
-/

namespace Sys2Proof.Config

/-- `CRC_POLY`, the generator polynomial's eight low coefficients (00_scope R11). -/
def crcPoly : Byte := 0x97#8

/-- `CRC_INIT`, the initial remainder of every packet's CRC, one constant for both sides (40_crc8 R123;
log 20). -/
def crcInit : Byte := 0xAA#8

/-- The other documented value of `CRC_INIT`, "the original format" (40_crc8 R123). -/
def crcInitOriginal : Byte := 0x00#8

/-- `PACKET_BYTES`, the length of a packet (00_scope R11). -/
def packetBytes : Nat := 10

/-- `PAYLOAD_BYTES`, the length of its payload (00_scope R11). -/
def payloadBytes : Nat := 8

/-- `PACKET_BITS` (00_scope R11). -/
def packetBits : Nat := 80

/-- `PREAMBLE_COUNT`, SYNC symbols before each packet copy (00_scope R11). -/
def preambleCount : Nat := 4

/-- `REPEATS`, the default number of packet copies of a burst (00_scope R11). -/
def defaultRepeats : Nat := 4

/-- `CAP`, the entries of the sequence memory (00_scope R11, 10_state R46). -/
def cap : Nat := 338

/-- `MIN_BITS`, the shortest eligible row (00_scope R11). -/
def minBits : Nat := 80

/-- `MAX_BITS`, the longest eligible row (00_scope R11). -/
def maxBits : Nat := 82

/-- `MIN_REPEATS`, the occurrences a row value needs (00_scope R11). -/
def minRepeats : Nat := 2

/-- `FIELD_IN_W`, the width of an ENCODE operand, `Word` (00_scope R11). -/
def fieldInW : Nat := 32

/-- `DUR_W`, the width of a duration, `Dur` (00_scope R11). -/
def durW : Nat := 16

/-- `REP_W`, the width of the `repeats` operand, `Repeats` (00_scope R11). -/
def repW : Nat := 8

/-- `NROWS_MAX`, the most rows a capture may have: OPEN in the spec, so uninterpreted here
(00_scope R11, 10_state R47; DESIGN CHOICE, safe: log 16). -/
opaque nrowsMax : Nat

/-- By how many bits `ROW_BITS_MAX` exceeds `MAX_BITS`: uninterpreted (10_state R47; DESIGN CHOICE, safe: log 16). -/
opaque rowBitsBeyond : Nat

/-- `ROW_BITS_MAX`, the most bits a captured row may have: OPEN in the spec but for `ROW_BITS_MAX >= 82`
(00_scope R11, 10_state R47; log 16). -/
def rowBitsMax : Nat := maxBits + rowBitsBeyond

/-- `SYNC_GAP_HIGH`: OPEN in the spec, so uninterpreted here: nothing in Lean can prove a value of it
(43_sequencer R188; DESIGN CHOICE, safe: log 1). -/
opaque syncGapHigh : Dur

/-- `SYNC_GAP_LOW`: OPEN in the spec, so uninterpreted here (43_sequencer R188; DESIGN CHOICE, safe: log 1). -/
opaque syncGapLow : Dur

end Sys2Proof.Config

namespace Sys2Proof

/-- One row of the timing table: how long the line is high, then low; zero means the phase is skipped
(43_sequencer R185, 00_scope R18). -/
structure SymbolTiming where
  high : Dur
  low : Dur
  deriving DecidableEq, Repr

/-- One field of a format layout: name, first packet bit, width, signedness, and the scaled view's name, scale and
offset (30_encoding R93, R98, R99). -/
structure FieldDesc where
  name : String
  first : Nat
  width : Nat
  signed : Bool
  scaledName : String
  scale : Rat
  offset : Rat
  deriving DecidableEq, Repr

end Sys2Proof
end

