-- ==== Sys2Proof/Syntax.lean ====
section
/-!
DEFINITION. Syntax.lean: the block's instructions, one constructor per row of spec/opcode_table.json, and the words
they are read from. The table's three formats are three separate encodings (30_encoding R90, R119): what the host
presents on the operation select, what the sequencer fetches from the sequence memory, and the 80-bit packet.
-/

namespace Sys2Proof

/-- The three encodings a word may belong to (30_encoding R90, R119). -/
inductive Space where
  | operation
  | symbol
  | packet
  deriving DecidableEq, Repr

/-- A word as the block reads it, with the encoding it is read in (30_encoding R90). -/
inductive FetchWord where
  /-- A 3-bit operation code on the operation select (30_encoding R109). -/
  | operation (code : OpCode)
  /-- A 3-bit symbol code, one entry of the sequence memory (30_encoding R105). -/
  | symbol (code : SymCode)
  /-- The ten bytes of a packet (30_encoding R91). -/
  | packet (bits : Packet)
  deriving DecidableEq, Repr

/-- The instructions of the block: the operation codes (30_encoding R109), the symbols (R105) and the packet formats
(R98, R99, R103). -/
inductive Instr where
  /-- Operation code 0, no operation requested (30_encoding R110). -/
  | opNone
  /-- Operation code 1 (40_crc8 R126). -/
  | crc8
  /-- Operation code 2 (41_codec R140). -/
  | encode
  /-- Operation code 3 (41_codec R148). -/
  | decode
  /-- Operation code 4 (42_compiler R166). -/
  | compile
  /-- Operation code 5 (43_sequencer R184). -/
  | play
  /-- Operation code 6, MATCH (44_matcher R206). -/
  | matchRows
  /-- Operation code 7, reserved (30_encoding R110). -/
  | opReserved
  /-- Symbol code 0 (43_sequencer R187). -/
  | sync
  /-- Symbol code 1 (43_sequencer R188). -/
  | syncGap
  /-- Symbol code 2 (43_sequencer R189). -/
  | zero
  /-- Symbol code 3 (43_sequencer R190). -/
  | one
  /-- Symbol code 4 (43_sequencer R191). -/
  | imGap
  /-- Symbol code 5, reserved (43_sequencer R192). -/
  | symReserved5
  /-- Symbol code 6, reserved (43_sequencer R192). -/
  | symReserved6
  /-- Symbol code 7, the end sentinel NONE (43_sequencer R193). -/
  | noneSym
  /-- A packet of format 0, packet bits left to right (30_encoding R98). -/
  | pktFmt0 (id : BitVec 4) (coreTemperature : BitVec 12) (reserved : BitVec 44) (voltage crc : Byte)
  /-- A packet of format 1, packet bits left to right (30_encoding R99). -/
  | pktFmt1 (id : BitVec 4) (temperature1 temperature2 : BitVec 12) (secondary1 secondary2 : Byte)
      (pressure : BitVec 16) (voltage crc : Byte)
  /-- A packet whose format selector is 2 or 3 (30_encoding R103). -/
  | pktReserved2to3 (fmt id : BitVec 4) (payload : BitVec 64) (crc : Byte)
  /-- A packet whose format selector is 4 to 7 (30_encoding R103). -/
  | pktReserved4to7 (fmt id : BitVec 4) (payload : BitVec 64) (crc : Byte)
  /-- A packet whose format selector is 8 to 15 (30_encoding R103). -/
  | pktReserved8to15 (fmt id : BitVec 4) (payload : BitVec 64) (crc : Byte)
  deriving DecidableEq, Repr

end Sys2Proof
end

