-- ==== Sys2Proof/Machine/State.lean ====
section
/-!
DEFINITION. Machine/State.lean: everything the spec gives the block (spec/10_state.md), the inputs the host presents,
the outputs already delivered, the reasons a step can stop, and the state after reset (10_state R52). Plain data.
The two halves share no mutable state (10_state R25), so each half is a record of its own.
-/

namespace Sys2Proof.Machine

/-- Why a step stops with a fault. -/
inductive Fault where
  /-- Raised by the sequencer's fetch when `SEQ_PC` is not below `CAP`: that entry of the sequence memory does not
  exist (20_memory R88 says it never occurs; it needs an unreachable state). SAFE (log 15). -/
  | seqIndexOutOfRange
  deriving DecidableEq, Repr

/-- Why a step is refused: what spec/60_exceptions.md R248 calls launches it gives no meaning. -/
inductive Refusal where
  /-- Raised by no meaning: for an arm of `exec` without one. SAFE. -/
  | notModelled (mnemonic : String)
  /-- Raised by OP_RESERVED: operation code 7 has no defined meaning (30_encoding R110). SAFE (log 18). -/
  | reservedOperation
  /-- Raised by ENCODE, COMPILE, PLAY and by a host write of the transmit half's registers while `TX_BUSY = 1`
  (70_reset_and_hazards R271). SAFE (log 18). -/
  | txBusy
  /-- Raised by the host's presentation of a capture that exceeds `NROWS_MAX` or `ROW_BITS_MAX`: no such capture exists
  (10_state R44, R47). SAFE (log 16). -/
  | captureTooLarge
  /-- Raised by PLAY while `SEQ_VALID = 0` (43_sequencer R199). SAFE (log 18). -/
  | sequenceNotValid
  /-- Raised by PLAY when `SEQ_LEN > CAP - 1`, or no NONE stands at index `SEQ_LEN`, or an entry below it was never
  written (43_sequencer R202, 93_implementation_defined U4). SAFE (log 18). -/
  | sequenceBroken
  /-- Raised by the sequencer's fetch of an entry that holds no value (20_memory R88). SAFE (log 14). -/
  | seqEntryNoValue
  deriving DecidableEq, Repr

/-- Which part of the current symbol the sequencer is in (10_state R50). -/
inductive Phase where
  | between
  | high
  | low
  deriving DecidableEq, Repr

/-- One event of the line trace (43_sequencer R181, R182, R183). -/
inductive Event where
  /-- `Line(b)`: the line was driven high (true) or low (false). -/
  | line (level : Bool)
  /-- `Delay(d)`: `us` microseconds passed. -/
  | delay (us : Nat)
  /-- `Abort(i)`: PLAY was aborted at index `i`. -/
  | abort (index : Nat)
  deriving DecidableEq, Repr

/-- An error kind with the information its `raise` carries (60_exceptions R230, R231). -/
inductive ErrorInfo where
  | checksum (computed stored : Byte)
  | rowNotFound
  | unknownFormat (fmt : BitVec 4)
  | sequenceOverflow (needed capacity : Nat)
  | playbackSequencing (index : Nat)
  deriving DecidableEq, Repr

/-- What the host may do between two effects of the block (00_scope R23; 10_state R43; 70_reset_and_hazards R260,
R264, R273). `pass`, `tick` and the list that holds these are the model's own schedule (DESIGN CHOICE, safe: log 4). -/
inductive HostAction where
  /-- The host does nothing; the sequencer, if running, finishes its current symbol. -/
  | pass
  /-- The host does nothing for one microsecond of the sequencer's time (43_sequencer R182; log 9). -/
  | tick
  /-- The host presents an operation code (30_encoding R109). -/
  | operation (code : OpCode)
  /-- The host writes `Q` with these ten bytes and presents DECODE (10_state R30; log 7). -/
  | packet (bits : Packet)
  | writeFmtIn (v : Word)
  | writeIdIn (v : Word)
  | writeFIn (slot : Fin 6) (v : Word)
  | writeRepeatsIn (v : Repeats)
  | writeP (i : Fin 10) (b : Byte)
  | writeQ (i : Fin 10) (b : Byte)
  | writeSeq (i : Fin 338) (c : SymCode)
  | writeSeqLen (v : SeqIndex)
  | writeSeqValid (b : Bool)
  /-- The host presents the operands of CRC8: the byte run and `init` (40_crc8 R126). -/
  | presentRun (bytes : List Byte) (init : Byte)
  /-- The host presents a capture buffer snapshot (10_state R47, 44_matcher R205). -/
  | presentCapture (rows : List Row)
  /-- The reset event (70_reset_and_hazards R260). -/
  | reset
  deriving DecidableEq, Repr

/-- Six field registers, `F_IN[0..5]` or `F_OUT[0..5]` (10_state R28, R31). -/
structure FieldRegs where
  f0 : Word
  f1 : Word
  f2 : Word
  f3 : Word
  f4 : Word
  f5 : Word
  deriving DecidableEq, Repr

/-- The sequence memory `SEQ`: the written entries as (index, code) pairs, indexes strictly rising; an index that is
not listed holds no value (10_state R44, R52; 20_memory R88). -/
abbrev SeqMem := List (Nat × SymCode)

/-- Which transmit registers the host or an operation has written since reset. One that nothing has written holds its
reset value, and an operation that would read it is turned away (10_state R52, 70_reset_and_hazards R266; log 3). -/
structure TxWritten where
  fmtIn : Bool
  idIn : Bool
  fIn : BitVec 6
  repeatsIn : Bool
  p : BitVec 10
  deriving DecidableEq, Repr

/-- The transmit half (10_state R28, R29, R35 to R40, R44, R50). -/
structure TxHalf where
  fmtIn : Word
  idIn : Word
  fIn : FieldRegs
  repeatsIn : Repeats
  p : Packet
  seq : SeqMem
  seqLen : SeqIndex
  seqValid : Bool
  seqPc : SeqIndex
  txBusy : Bool
  txErr : BitVec 3
  phase : Phase
  timer : Dur
  line : Bool
  written : TxWritten
  deriving DecidableEq, Repr

/-- The receive half (10_state R30 to R32, R40, R41). `qWritten` records the bytes of `Q` written since reset,
`matchWritten` that `MATCH_ROW` and `MATCH_LEN` are (log 3). -/
structure RxHalf where
  q : Packet
  fmtOut : BitVec 4
  idOut : BitVec 4
  fOut : FieldRegs
  nFieldsOut : BitVec 3
  outValid : Bool
  matchRow : Nat
  matchLen : Nat
  rxErr : BitVec 3
  mState : BitVec 3
  qWritten : BitVec 10
  matchWritten : Bool
  deriving DecidableEq, Repr

/-- The Checksum Engine's registers `CRC_REM` and `CRC_OUT` (10_state R33, R34). -/
structure CrcEngine where
  rem : Byte
  out : Byte
  outWritten : Bool
  deriving DecidableEq, Repr

/-- What the host presents: the operands that come with an operation and are no registers of the block (40_crc8 R126,
10_state R47), each with a record that the host has supplied it since reset (70_reset_and_hazards R264; log 3), and what
it does next (log 4). -/
structure HostPort where
  crcRun : List Byte
  crcInit : Byte
  runWritten : Bool
  capture : List Row
  captureWritten : Bool
  queue : List HostAction
  deriving DecidableEq, Repr

/-- Outputs already delivered (00_scope R24): the line trace, oldest event first (43_sequencer R183; log 11), and the
error reports, oldest first (60_exceptions R236; log 12). `runMarked` says that the run is marked "for the whole run":
an operation that would have read an operand nothing had written since reset was turned away (60_exceptions R248,
70_reset_and_hazards R266; log 3). -/
structure Outputs where
  trace : List Event
  reports : List ErrorInfo
  runMarked : Bool
  deriving DecidableEq, Repr

/-- The whole state. -/
structure State where
  tx : TxHalf
  rx : RxHalf
  crc : CrcEngine
  host : HostPort
  out : Outputs
  deriving DecidableEq, Repr

/-- Field registers as the model resets them: the spec gives no value (DESIGN CHOICE, unsafe: log 2). -/
def FieldRegs.zeros : FieldRegs := ⟨0#32, 0#32, 0#32, 0#32, 0#32, 0#32⟩

/-- The transmit half after reset (10_state R52); operand registers and `P` have no value in the spec
(DESIGN CHOICE zero, unsafe: log 2), and nothing has written them yet. -/
def TxHalf.reset : TxHalf where
  fmtIn := 0#32
  idIn := 0#32
  fIn := FieldRegs.zeros
  repeatsIn := 0#8
  p := 0#80
  seq := []
  seqLen := 0#9
  seqValid := false
  seqPc := 0#9
  txBusy := false
  txErr := 0#3
  phase := .between
  timer := 0#16
  line := false
  written := ⟨false, false, 0#6, false, 0#10⟩

/-- The receive half after reset (10_state R52); `Q`, the result registers, `MATCH_ROW` and `MATCH_LEN` have no value
in the spec (DESIGN CHOICE zero, unsafe: log 2), and nothing has written them yet. -/
def RxHalf.reset : RxHalf where
  q := 0#80
  fmtOut := 0#4
  idOut := 0#4
  fOut := FieldRegs.zeros
  nFieldsOut := 0#3
  outValid := false
  matchRow := 0
  matchLen := 0
  rxErr := 0#3
  mState := 0#3
  qWritten := 0#10
  matchWritten := false

/-- The Checksum Engine after reset: no value in the spec (DESIGN CHOICE zero, unsafe: log 2). -/
def CrcEngine.reset : CrcEngine := ⟨0#8, 0#8, false⟩

/-- The machine right after reset (10_state R52, 70_reset_and_hazards R260, R263): nothing presented, nothing
delivered, nothing running. -/
def State.reset : State where
  tx := TxHalf.reset
  rx := RxHalf.reset
  crc := CrcEngine.reset
  host := ⟨[], 0#8, false, [], false, []⟩
  out := ⟨[], [], false⟩

end Sys2Proof.Machine
end

