-- ==== Sys2Proof/Machine/Flags.lean ====
section
/-!
DEFINITION. Machine/Flags.lean: the status codes (10_state R38 to R41; 60_exceptions R231). The block has no
arithmetic condition codes (10_state R38); its flags are status registers.
-/

namespace Sys2Proof.Machine

/-- The code of an error kind in `TX_ERR` or `RX_ERR` (10_state R40, 60_exceptions R231). -/
def errorCode : ErrorInfo → BitVec 3
  | .checksum _ _ => 1#3
  | .rowNotFound => 2#3
  | .unknownFormat _ => 3#3
  | .sequenceOverflow _ _ => 4#3
  | .playbackSequencing _ => 5#3

/-- Does the error belong to the transmit half (60_exceptions R231, R236)? -/
def errorOfTx : ErrorInfo → Bool
  | .checksum _ _ => false
  | .rowNotFound => false
  | .unknownFormat _ => false
  | .sequenceOverflow _ _ => true
  | .playbackSequencing _ => true

/-- `M_STATE` Searching (10_state R41). -/
def mSearching : BitVec 3 := 0#3

/-- `M_STATE` RowMatched (10_state R41). -/
def mRowMatched : BitVec 3 := 1#3

/-- `M_STATE` ChecksumValidated (10_state R41). -/
def mChecksumValidated : BitVec 3 := 2#3

/-- `M_STATE` FormatDispatched (10_state R41). -/
def mFormatDispatched : BitVec 3 := 3#3

/-- `M_STATE` Decoded (10_state R41). -/
def mDecoded : BitVec 3 := 4#3

/-- `M_STATE` Failed (10_state R41). -/
def mFailed : BitVec 3 := 5#3

end Sys2Proof.Machine
end

