-- ==== Sys2Proof/WellFormed.lean ====
section
/-!
DEFINITION. WellFormed.lean: which instruction terms stand for a word. Every operand is as wide as its field, so the
one thing left to check is that a reserved packet's format selector lies in its own row's range (30_encoding R103,
R119).
-/

namespace Sys2Proof

/-- Does `lo <= fmt <= hi` hold, as numbers (30_encoding R103)? -/
def fmtInRange (lo hi : Nat) (fmt : BitVec 4) : Bool :=
  decide (lo ≤ fmt.toNat) && decide (fmt.toNat ≤ hi)

/-- The instruction stands for a word of its row of the opcode table. -/
def Instr.wf : Instr → Bool
  | .opNone => true
  | .crc8 => true
  | .encode => true
  | .decode => true
  | .compile => true
  | .play => true
  | .matchRows => true
  | .opReserved => true
  | .sync => true
  | .syncGap => true
  | .zero => true
  | .one => true
  | .imGap => true
  | .symReserved5 => true
  | .symReserved6 => true
  | .noneSym => true
  | .pktFmt0 _ _ _ _ _ => true
  | .pktFmt1 _ _ _ _ _ _ _ _ => true
  | .pktReserved2to3 fmt _ _ _ => fmtInRange 2 3 fmt
  | .pktReserved4to7 fmt _ _ _ => fmtInRange 4 7 fmt
  | .pktReserved8to15 fmt _ _ _ => fmtInRange 8 15 fmt

end Sys2Proof
end

