-- ==== Sys2Proof/Decode.lean ====
section
/-!
DEFINITION. Decode.lean: from words and bytes to instructions and back, written from the encoding tables of
spec/30_encoding.md (R91, R98, R99, R103, R105, R109, R119).
-/

namespace Sys2Proof

/-- Why bytes are no instruction of an encoding. -/
inductive DecodeError where
  /-- An operation or symbol code is one 3-bit code in one byte; the bytes are more or fewer (log 6). -/
  | codeLength
  /-- The five bits of the byte above the 3-bit code are not zero (log 6). -/
  | codeHighBits
  /-- A packet is exactly ten bytes (30_encoding R91). -/
  | packetLength
  deriving DecidableEq, Repr

/-- `w` bits of a packet from packet bit `s` on, the most significant first (00_scope R15). -/
def packetSlice (p : Packet) (s w : Nat) : BitVec w := p.extractLsb' (80 - s - w) w

/-- The operation an operation code selects (30_encoding R109). -/
def decodeOperation (code : OpCode) : Instr :=
  match code.toNat with
  | 0 => .opNone
  | 1 => .crc8
  | 2 => .encode
  | 3 => .decode
  | 4 => .compile
  | 5 => .play
  | 6 => .matchRows
  | _ => .opReserved

/-- The symbol a code of the sequence memory stands for (30_encoding R105). -/
def decodeSymbol (code : SymCode) : Instr :=
  match code.toNat with
  | 0 => .sync
  | 1 => .syncGap
  | 2 => .zero
  | 3 => .one
  | 4 => .imGap
  | 5 => .symReserved5
  | 6 => .symReserved6
  | _ => .noneSym

/-- A packet by its format selector, packet bits 0 to 3 (30_encoding R91, R98, R99, R103). -/
def decodePacket (p : Packet) : Instr :=
  let fmt := packetSlice p 0 4
  let id := packetSlice p 4 4
  let crc := packetSlice p 72 8
  if fmt = 0#4 then
    .pktFmt0 id (packetSlice p 8 12) (packetSlice p 20 44) (packetSlice p 64 8) crc
  else if fmt = 1#4 then
    .pktFmt1 id (packetSlice p 8 12) (packetSlice p 20 12) (packetSlice p 32 8) (packetSlice p 40 8)
      (packetSlice p 48 16) (packetSlice p 64 8) crc
  else if fmtInRange 2 3 fmt then .pktReserved2to3 fmt id (packetSlice p 8 64) crc
  else if fmtInRange 4 7 fmt then .pktReserved4to7 fmt id (packetSlice p 8 64) crc
  else .pktReserved8to15 fmt id (packetSlice p 8 64) crc

/-- Every word of every encoding is some row of the table: the rows of a format are exclusive and exhaustive
(30_encoding R119), so this decoder refuses nothing. -/
def decodeWord : FetchWord → Instr
  | .operation code => decodeOperation code
  | .symbol code => decodeSymbol code
  | .packet bits => decodePacket bits

/-- The bytes of a packet, byte 0 first (00_scope R14). -/
def packetOfBytes (bytes : List Byte) : Packet :=
  bytes.foldl (fun acc b => (acc <<< 8) ||| b.setWidth 80) 0#80

/-- From bytes to an instruction of one encoding, refusing by name. A 3-bit code stands in the low bits of one
byte: the spec gives the codes no byte (DESIGN CHOICE, safe: log 6). -/
def decodeBytes (space : Space) (bytes : List Byte) : Except DecodeError Instr :=
  match space, bytes with
  | .operation, [b] =>
    if b.toNat < 8 then .ok (decodeWord (.operation (b.setWidth 3))) else .error .codeHighBits
  | .symbol, [b] =>
    if b.toNat < 8 then .ok (decodeWord (.symbol (b.setWidth 3))) else .error .codeHighBits
  | .packet, bs =>
    if bs.length = Config.packetBytes then .ok (decodeWord (.packet (packetOfBytes bs))) else .error .packetLength
  | _, _ => .error .codeLength

/-- The word of a format 0 packet, left to right as its pattern (30_encoding R98). -/
def pktFmt0Bits (id : BitVec 4) (coreTemperature : BitVec 12) (reserved : BitVec 44) (voltage crc : Byte) : Packet :=
  0#4 ++ id ++ coreTemperature ++ reserved ++ voltage ++ crc

/-- The word of a format 1 packet, left to right as its pattern (30_encoding R99). -/
def pktFmt1Bits (id : BitVec 4) (temperature1 temperature2 : BitVec 12) (secondary1 secondary2 : Byte)
    (pressure : BitVec 16) (voltage crc : Byte) : Packet :=
  1#4 ++ id ++ temperature1 ++ temperature2 ++ secondary1 ++ secondary2 ++ pressure ++ voltage ++ crc

/-- The word of a packet of a reserved format: selector, id, payload, CRC (30_encoding R91, R103). -/
def pktReservedBits (fmt id : BitVec 4) (payload : BitVec 64) (crc : Byte) : Packet :=
  fmt ++ id ++ payload ++ crc

/-- The word of an instruction (30_encoding R91, R98, R99, R103, R105, R109). -/
def encode : Instr → FetchWord
  | .opNone => .operation 0#3
  | .crc8 => .operation 1#3
  | .encode => .operation 2#3
  | .decode => .operation 3#3
  | .compile => .operation 4#3
  | .play => .operation 5#3
  | .matchRows => .operation 6#3
  | .opReserved => .operation 7#3
  | .sync => .symbol 0#3
  | .syncGap => .symbol 1#3
  | .zero => .symbol 2#3
  | .one => .symbol 3#3
  | .imGap => .symbol 4#3
  | .symReserved5 => .symbol 5#3
  | .symReserved6 => .symbol 6#3
  | .noneSym => .symbol 7#3
  | .pktFmt0 id t r v c => .packet (pktFmt0Bits id t r v c)
  | .pktFmt1 id t1 t2 s1 s2 p v c => .packet (pktFmt1Bits id t1 t2 s1 s2 p v c)
  | .pktReserved2to3 fmt id payload c => .packet (pktReservedBits fmt id payload c)
  | .pktReserved4to7 fmt id payload c => .packet (pktReservedBits fmt id payload c)
  | .pktReserved8to15 fmt id payload c => .packet (pktReservedBits fmt id payload c)

/-- The encoding an instruction belongs to (30_encoding R119). -/
def encodingOf (i : Instr) : Space :=
  match encode i with
  | .operation _ => .operation
  | .symbol _ => .symbol
  | .packet _ => .packet

/-- Byte `i` of a packet (00_scope R14). -/
def packetByte (p : Packet) (i : Nat) : Byte := packetSlice p (8 * i) 8

/-- The bytes of a word: a 3-bit code in the low bits of one byte (log 6), a packet as its ten bytes, byte 0
first. -/
def wordBytes : FetchWord → List Byte
  | .operation code => [code.setWidth 8]
  | .symbol code => [code.setWidth 8]
  | .packet bits => (List.range Config.packetBytes).map (packetByte bits)

/-- What a word numbered as spec/opcode_table.json numbers it stands for: `nbits` = 80 is a packet, whose number has
byte 0 most significant (30_encoding R119); `nbits` = 8 (or 3) is a 3-bit code. The table's operation rows and its
symbol rows have the SAME words; a word alone cannot tell them apart, and this reader takes the operation, which is
what the host presents to an idle block (DESIGN CHOICE: log 6). -/
def tableWord (nbits w : Nat) : Option FetchWord :=
  if nbits = 80 then
    if w < 2 ^ 80 then some (.packet (BitVec.ofNat 80 w)) else none
  else if nbits = 8 || nbits = 3 then
    if w < 8 then some (.operation (BitVec.ofNat 3 w)) else none
  else none

/-- The instruction the decoder reads from a word of the opcode table: the word is laid out in bytes and the bytes
are decoded. -/
def decodeTableWord (nbits w : Nat) : Option Instr :=
  match tableWord nbits w with
  | some (.operation c) => (decodeBytes .operation (wordBytes (.operation c))).toOption
  | some (.symbol c) => (decodeBytes .symbol (wordBytes (.symbol c))).toOption
  | some (.packet p) => (decodeBytes .packet (wordBytes (.packet p))).toOption
  | none => none

end Sys2Proof
end

