-- ==== Sys2Proof/Machine/Operands.lean ====
section
/-!
DEFINITION. Machine/Operands.lean: the operand forms: bits, bytes and fields of a packet (00_scope R14, R15; 41_codec
R136, R137), field slots (41_codec R142, R152), entries of the sequence memory (20_memory R88) and captured rows
(44_matcher R207, R208).
-/

namespace Sys2Proof.Machine

/-- `Pbit(P, k)`: packet bit `k` (00_scope R14). -/
def pbit (p : Packet) (k : Nat) : Bool := p.getMsbD k

/-- `SetPbit(P, k, v)`: packet bit `k` becomes `v`, the other 79 stay (00_scope R14). -/
def setPbit (p : Packet) (k : Nat) (v : Bool) : Packet :=
  if v then p ||| (1#80 <<< (79 - k)) else p &&& ~~~(1#80 <<< (79 - k))

/-- `Field(P, s, w)`: packet bits `s` to `s+w-1`, the most significant first (00_scope R15). -/
def field (p : Packet) (s w : Nat) : BitVec w := packetSlice p s w

/-- `PackField(P, s, w, v)`: the low `w` bits of `v` go to packet bits `s` to `s+w-1`, by shift and mask; the other
bits stay (41_codec R136). -/
def packField (p : Packet) (s w : Nat) (v : Word) : Packet :=
  (p &&& ~~~((BitVec.allOnes w).setWidth 80 <<< (80 - s - w))) ||| ((v.setWidth w).setWidth 80 <<< (80 - s - w))

/-- `UnpackField(Q, s, w, signed)`: the raw value of a field, in 32 bits two's complement (41_codec R137). -/
def unpackField (q : Packet) (s w : Nat) (signed : Bool) : Word :=
  if signed then (field q s w).signExtend 32 else (field q s w).setWidth 32

/-- `P[i]`, byte `i` of a packet (00_scope R14). -/
def byteAt (p : Packet) (i : Nat) : Byte := packetByte p i

/-- `P[i] <- b`: byte `i` is packet bits `8i` to `8i+7` (20_memory R67). -/
def setByte (p : Packet) (i : Nat) (b : Byte) : Packet := packField p (8 * i) 8 (b.setWidth 32)

/-- Bytes 0 to 8 of a packet, the run its CRC is computed over (40_crc8 R127, R128). -/
def crcRunOf (p : Packet) : List Byte := (List.range 9).map (byteAt p)

/-- The packet's format selector, the high nibble of byte 0 (41_codec R150). -/
def fmtOf (p : Packet) : BitVec 4 := field p 0 4

/-- The packet's device id, the low nibble of byte 0 (41_codec R150). -/
def idOf (p : Packet) : BitVec 4 := field p 4 4

/-- The packet's stored CRC byte (30_encoding R91). -/
def storedCrc (p : Packet) : Byte := byteAt p 9

/-- Slot `n` of six field registers; the slots are 0 to 5 (10_state R28, R31). -/
def slot (f : FieldRegs) (n : Nat) : Word :=
  match n with
  | 0 => f.f0
  | 1 => f.f1
  | 2 => f.f2
  | 3 => f.f3
  | 4 => f.f4
  | _ => f.f5

/-- Writes slot `n`; a layout has no field beyond slot 5, and such a write would write nothing. -/
def setSlot (f : FieldRegs) (n : Nat) (v : Word) : FieldRegs :=
  match n with
  | 0 => { f with f0 := v }
  | 1 => { f with f1 := v }
  | 2 => { f with f2 := v }
  | 3 => { f with f3 := v }
  | 4 => { f with f4 := v }
  | 5 => { f with f5 := v }
  | _ => f

/-- Packs the fields of a layout from slot `n` on, in list order (41_codec R140). -/
def packFields (f : FieldRegs) : List FieldDesc → Nat → Packet → Packet
  | [], _, p => p
  | d :: ds, n, p => packFields f ds (n + 1) (packField p d.first d.width (slot f n))

/-- The raw values of a layout's fields, in slot order (41_codec R152). -/
def unpackFields (q : Packet) (l : List FieldDesc) : List Word :=
  l.map fun d => unpackField q d.first d.width d.signed

/-- Writes values to the slots from `n` on; the other slots are not written (41_codec R152). -/
def putSlots : List Word → Nat → FieldRegs → FieldRegs
  | [], _, f => f
  | v :: vs, n, f => putSlots vs (n + 1) (setSlot f n v)

/-- `MemRead(SEQ, i)`: the entry last written at `i`, none if it holds no value (20_memory R88). -/
def readSeq : SeqMem → Nat → Option SymCode
  | [], _ => none
  | (a, c) :: m, i => if a = i then some c else readSeq m i

/-- `MemWrite(SEQ, i, c)`, keeping the entries in rising order of index (20_memory R88). -/
def writeSeq : SeqMem → Nat → SymCode → SeqMem
  | [], i, c => [(i, c)]
  | (a, d) :: m, i, c =>
    if i < a then (i, c) :: (a, d) :: m else if i = a then (i, c) :: m else (a, d) :: writeSeq m i c

/-- Writes a run of codes to consecutive entries from the write index `w` on (42_compiler R166, R168). -/
def writeSeqRun : List SymCode → Nat → SeqMem → SeqMem
  | [], _, m => m
  | c :: cs, w, m => writeSeqRun cs (w + 1) (writeSeq m w c)

/-- Are the indexes strictly rising, each at least `lo` and below `CAP`? -/
def seqRising : Nat → SeqMem → Bool
  | _, [] => true
  | lo, (a, _) :: m => decide (lo ≤ a) && decide (a < Config.cap) && seqRising (a + 1) m

/-- The canonical form of the sequence memory: strictly rising indexes below `CAP` (10_state R44). -/
def SeqMem.wf (m : SeqMem) : Bool := seqRising 0 m

/-- The slots of `F_IN` an ENCODE of a format reads: those below the field count of its layout (41_codec R142). -/
def slotsRead (fmt : Word) : BitVec 6 :=
  match layout (fmt.setWidth 4) with
  | some l => BitVec.ofNat 6 (2 ^ l.length - 1)
  | none => 0#6

/-- Has something written `FMT_IN`, `ID_IN` and the slots of `F_IN` that an ENCODE reads (70_reset_and_hazards R264)? -/
def encodeOperandsWritten (s : State) : Bool :=
  s.tx.written.fmtIn && s.tx.written.idIn && decide (s.tx.written.fIn &&& slotsRead s.tx.fmtIn = slotsRead s.tx.fmtIn)

/-- Has something written `P[0..9]` and `REPEATS_IN` (70_reset_and_hazards R264)? -/
def compileOperandsWritten (s : State) : Bool := s.tx.written.repeatsIn && decide (s.tx.written.p = BitVec.allOnes 10)

/-- Has something written `Q[0..9]` (70_reset_and_hazards R264)? -/
def decodeOperandsWritten (s : State) : Bool := decide (s.rx.qWritten = BitVec.allOnes 10)

/-- Has the host supplied the byte run and `init` of CRC8 (70_reset_and_hazards R264)? -/
def crc8OperandsWritten (s : State) : Bool := s.host.runWritten

/-- Has the host supplied the capture snapshot of MATCH (70_reset_and_hazards R264)? -/
def matchOperandsWritten (s : State) : Bool := s.host.captureWritten

/-- Is a capture within the buffer's capacity, `NROWS <= NROWS_MAX` and `ROW_LEN[r] <= ROW_BITS_MAX` for every row
(10_state R44, R47)? -/
def captureFits (rows : List Row) : Bool :=
  decide (rows.length ≤ Config.nrowsMax) && rows.all fun r => decide (r.length ≤ Config.rowBitsMax)

/-- Does a row take part in the search (44_matcher R207)? -/
def eligible (r : Row) : Bool := decide (Config.minBits ≤ r.length) && decide (r.length ≤ Config.maxBits)

/-- How many eligible rows of the capture have the value of `r`: the same bit count and all the same bits
(44_matcher R208, R209). -/
def occurrences (rows : List Row) (r : Row) : Nat := rows.countP fun q => eligible q && decide (q = r)

/-- Is `r` an eligible row value that occurs at least `MIN_REPEATS` times (44_matcher R206, R209)? -/
def repeated (rows : List Row) (r : Row) : Bool :=
  eligible r && decide (Config.minRepeats ≤ occurrences rows r)

/-- The search from row index `n` on: the first repeated row, with its index (44_matcher R206, R209). -/
def searchFrom (rows : List Row) : List Row → Nat → Option (Nat × Row)
  | [], _ => none
  | r :: rs, n => if repeated rows r then some (n, r) else searchFrom rows rs (n + 1)

/-- Step 1 of MATCH: the least row index whose row is repeated (44_matcher R206; the spec's decision D26: log 22). -/
def searchRows (rows : List Row) : Option (Nat × Row) := searchFrom rows rows 0

/-- `SetPbit(Q, k, row[k])` for the bits of a row from packet bit `k` on (44_matcher R206, R212). -/
def packBits : Row → Nat → Packet → Packet
  | [], _, q => q
  | b :: bs, k, q => packBits bs (k + 1) (setPbit q k b)

/-- Step 2 of MATCH: the first `PACKET_BITS` = 80 bits of the row, the rest dropped. An eligible row has them all, so
nothing of the old `Q` is left (44_matcher R207, R212). -/
def packRow (r : Row) (q : Packet) : Packet := packBits (r.take Config.packetBits) 0 q

end Sys2Proof.Machine
end

