-- ==== Sys2Proof/Machine/Ops.lean ====
section
/-!
DEFINITION. Machine/Ops.lean: the operations the meanings share: raising an error (60_exceptions R236), starting an
operation of a half (60_exceptions R243), the CRC computation (40_crc8 R124 to R128), the check and the extraction of a
packet (41_codec R148, R155), and the two effects of the sequencer (43_sequencer R181, R182).
-/

namespace Sys2Proof.Machine

/-- CRC_BYTE: one step of the Checksum Engine (40_crc8 R125). -/
def crcByte (r b : Byte) : Byte := crcTab (r ^^^ b)

/-- `crc8(bytes, length, init)` as a function (40_crc8 R126). -/
def crc8 (bytes : List Byte) (init : Byte) : Byte := bytes.foldl crcByte init

/-- The CRC8 of bytes 0 to 8 of a packet from a given initial remainder (40_crc8 R127, R128). -/
def packetCrcFrom (init : Byte) (p : Packet) : Byte := crc8 (crcRunOf p) init

/-- The CRC8 of bytes 0 to 8 of a packet with the block's `CRC_INIT` (40_crc8 R123, R127, R128). -/
def packetCrc (p : Packet) : Byte := packetCrcFrom Config.crcInit p

/-- The packet's only validity condition (30_encoding R92). -/
def packetValid (p : Packet) : Bool := decide (packetCrc p = storedCrc p)

/-- `CRC_REM` after a computation: every CRC8 computation loads it and leaves its result there, the ones inside
ENCODE, DECODE and MATCH too; `CRC_OUT` is not written (10_state R33, R34; DEDUCED, safe: log 13). -/
def setRem (r : Byte) (s : State) : State := { s with crc.rem := r }

/-- `raise E(info)`: the error register of E's half gets E's code and the error is reported to the host with its
information; the operation is over. Nothing is saved and control goes nowhere (60_exceptions R236). -/
def raiseError (e : ErrorInfo) (s : State) : State :=
  match errorOfTx e with
  | true => { s with tx.txErr := errorCode e, out.reports := s.out.reports ++ [e] }
  | false => { s with rx.rxErr := errorCode e, out.reports := s.out.reports ++ [e] }

/-- The start of an operation of the transmit half: `TX_ERR <- 0` (60_exceptions R243). It is also all the "return"
from an error there is: nothing was entered. -/
def beginTx (s : State) : State := { s with tx.txErr := 0#3 }

/-- A launch that is turned away: "the model gives it no step and marks the run". The operation does not begin, reads
nothing and writes nothing; only the mark is set, for good (60_exceptions R248, 70_reset_and_hazards R266; log 3). -/
def turnAway (s : State) : State := { s with out.runMarked := true }

/-- The launch of an operation: it runs when every operand it reads was written since reset, and is turned away otherwise:
"It does not read zero and it does not read an arbitrary value" (70_reset_and_hazards R264, R266; that the machine goes on
after it is the model's: DESIGN CHOICE, log 3). -/
def launch (written : Bool) (run : State → State) (s : State) : Host.Outcome State Fault Refusal :=
  .next (if written then run s else turnAway s)

/-- The launch of ENCODE or COMPILE: refused while PLAY runs (70_reset_and_hazards R271). -/
def launchTx (written : Bool) (run : State → State) (s : State) : Host.Outcome State Fault Refusal :=
  if s.tx.txBusy then .refused .txBusy else launch written (fun u => run (beginTx u)) s

/-- The start of an operation of the receive half: `RX_ERR <- 0 ; OUT_VALID <- 0` (41_codec R148, 44_matcher R206,
60_exceptions R243). -/
def beginRx (s : State) : State := { s with rx.rxErr := 0#3, rx.outValid := false }

/-- `M_STATE <- v` (44_matcher R216). -/
def setMState (v : BitVec 3) (s : State) : State := { s with rx.mState := v }

/-- The ten bytes of `Q` are written (44_matcher R212, 10_state R30). -/
def writeQ (q : Packet) (s : State) : State := { s with rx.q := q, rx.qWritten := BitVec.allOnes 10 }

/-- The registers a decode that succeeds writes: the format, the id, the raw values in their slots, the field count,
and `OUT_VALID <- 1`; slots beyond the values are not written (41_codec R148, R152). -/
def deliver (fmt id : BitVec 4) (values : List Word) (s : State) : State :=
  { s with
    rx.fmtOut := fmt
    rx.idOut := id
    rx.fOut := putSlots values 0 s.rx.fOut
    rx.nFieldsOut := BitVec.ofNat 3 values.length
    rx.outValid := true }

/-- EXTRACT: the values of `Q` by a layout, delivered (41_codec R155). -/
def extract (l : List FieldDesc) (s : State) : State :=
  deliver (fmtOf s.rx.q) (idOf s.rx.q) (unpackFields s.rx.q l) s

/-- The CRC of `Q` is computed (40_crc8 R128): `CRC_REM` holds it. -/
def computeQCrc (s : State) : State := setRem (packetCrc s.rx.q) s

/-- The checksum error of the packet in `Q`: it carries the computed and the stored CRC (41_codec R149). -/
def raiseChecksum (s : State) : State := raiseError (.checksum (packetCrc s.rx.q) (storedCrc s.rx.q)) s

/-- The checksum test of a packet that stands in `Q`, and what follows when it passes (41_codec R148, R149). -/
def checkedThen (accept : State → State) (s : State) : State :=
  let s := computeQCrc (beginRx s)
  if packetCrc s.rx.q = storedCrc s.rx.q then accept s else raiseChecksum s

/-- `set_line(b)`: the line is driven and the event recorded, even when the level does not change
(43_sequencer R181). -/
def setLine (b : Bool) (s : State) : State :=
  { s with tx.line := b, out.trace := s.out.trace ++ [.line b] }

/-- `delay_us(d)` as one effect: the line keeps its level and the event is recorded (43_sequencer R182). -/
def delayUs (d : Dur) (s : State) : State :=
  { s with out.trace := s.out.trace ++ [.delay d.toNat] }

/-- The high phase of a symbol, skipped without touching the line when its duration is zero (43_sequencer R194). -/
def highPhase (t : SymbolTiming) (s : State) : State :=
  if t.high = 0#16 then s else delayUs t.high (setLine true s)

/-- The low phase of a symbol, skipped without touching the line when its duration is zero (43_sequencer R194). -/
def lowPhase (t : SymbolTiming) (s : State) : State :=
  if t.low = 0#16 then s else delayUs t.low (setLine false s)

/-- `ExecSymbol(h, l)`: the high phase, then the low phase (43_sequencer R194). -/
def execSymbol (t : SymbolTiming) (s : State) : State := lowPhase t (highPhase t s)

/-- The normal end of PLAY: `TX_BUSY <- 0` when `SEQ_PC` is not below `SEQ_LEN` (43_sequencer R184, R198). -/
def endIfDone (s : State) : State :=
  if s.tx.seqPc.toNat < s.tx.seqLen.toNat then s else { s with tx.txBusy := false }

/-- A symbol is complete: the sequencer is between symbols, `SEQ_PC <- SEQ_PC + 1`, and PLAY ends if that was the last
one (43_sequencer R184; DEDUCED, safe: log 8). -/
def completeSymbol (s : State) : State :=
  endIfDone { s with tx.seqPc := s.tx.seqPc + 1#9, tx.phase := .between, tx.timer := 0#16 }

/-- A whole symbol: its phases, then on to the next (43_sequencer R184, R194). -/
def playSymbol (t : SymbolTiming) (s : State) : State := completeSymbol (execSymbol t s)

/-- The abort of PLAY at the entry just fetched: `Abort(SEQ_PC)` is recorded, `TX_BUSY <- 0`, the error is raised;
`SEQ_PC` and the line stay (43_sequencer R192, R193, R195). -/
def abortPlay (s : State) : State :=
  raiseError (.playbackSequencing s.tx.seqPc.toNat)
    { s with tx.txBusy := false, out.trace := s.out.trace ++ [.abort s.tx.seqPc.toNat] }

end Sys2Proof.Machine
end

