-- ==== Sys2Proof/Machine/ChecksumEngine.lean ====
section
/-!
DEFINITION. Machine/ChecksumEngine.lean: OP_NONE, OP_RESERVED (30_encoding R110) and the operation CRC8
(40_crc8 R126).
-/

namespace Sys2Proof.Machine

/-- OP_NONE: "starts nothing and changes nothing" (30_encoding R110). -/
def execOpNone (s : State) : Host.Outcome State Fault Refusal := .next s

/-- A result of the engine: `CRC_REM` and `CRC_OUT` are written and nothing else (40_crc8 R126, 10_state R33, R34). -/
def putCrc (r : Byte) (s : State) : State := { s with crc := { rem := r, out := r, outWritten := true } }

/-- CRC8 over the run and `init` the host presents (40_crc8 R126); turned away while it has supplied none
(70_reset_and_hazards R264, R266). -/
def execCrc8 (s : State) : Host.Outcome State Fault Refusal :=
  launch (crc8OperandsWritten s) (putCrc (crc8 s.host.crcRun s.host.crcInit)) s

/-- OP_RESERVED: no defined meaning, refused (30_encoding R110, 93_implementation_defined U9). -/
def execOpReserved (_s : State) : Host.Outcome State Fault Refusal := .refused .reservedOperation

end Sys2Proof.Machine
end

