-- ==== Sys2Proof/Machine/Codec.lean ====
section
/-!
DEFINITION. Machine/Codec.lean: the Packet Codec: ENCODE (41_codec R140) and DECODE (41_codec R148), and the five
packet rows of the opcode table, each the decode of a packet of that format (30_encoding R98, R99, R103; log 7).
-/

namespace Sys2Proof.Machine

/-- The header and the payload of an ENCODE, the CRC byte still zero: the low four bits of the format and of the id,
the layout's fields, unused capacity zero; an unregistered format has no fields (41_codec R140, R141, R143). -/
def encodeBody (fmt id : Word) (f : FieldRegs) : Packet :=
  let header := setByte 0#80 0 (fmt.setWidth 4 ++ id.setWidth 4)
  match layout (fmt.setWidth 4) with
  | some l => packFields f l 0 header
  | none => header

/-- The CRC stamp: byte 9 becomes the CRC8 of bytes 0 to 8 (40_crc8 R127). -/
def stampFrom (init : Byte) (p : Packet) : Packet := setByte p 9 (packetCrcFrom init p)

/-- The packet ENCODE builds, with the block's `CRC_INIT` (41_codec R140). -/
def encodePacket (fmt id : Word) (f : FieldRegs) : Packet := stampFrom Config.crcInit (encodeBody fmt id f)

/-- `P <- p`, its CRC left in `CRC_REM` (41_codec R140; log 13). -/
def putPacket (p : Packet) (s : State) : State :=
  { setRem (packetCrc p) s with tx.p := p, tx.written.p := BitVec.allOnes 10 }

/-- ENCODE (41_codec R140); refused while PLAY runs (70_reset_and_hazards R271), turned away while an operand it reads was
never written (R266). -/
def execEncode (s : State) : Host.Outcome State Fault Refusal :=
  launchTx (encodeOperandsWritten s) (putPacket (encodePacket s.tx.fmtIn s.tx.idIn s.tx.fIn)) s

/-- What DECODE does once the checksum matched: the layout's values are delivered, or UnknownFormatError is raised
(41_codec R148, R151). -/
def acceptByLayout (s : State) : State :=
  match layout (fmtOf s.rx.q) with
  | some l => extract l s
  | none => raiseError (.unknownFormat (fmtOf s.rx.q)) s

/-- DECODE of the packet in `Q` (41_codec R148); turned away while a byte of `Q` was never written
(70_reset_and_hazards R266). -/
def execDecode (s : State) : Host.Outcome State Fault Refusal :=
  launch (decodeOperandsWritten s) (checkedThen acceptByLayout) s

/-- PKT_FMT0: the packet is written to `Q` and decoded: its two fields by the pattern of 30_encoding R98, the reserved
bits ignored (30_encoding R104; DESIGN CHOICE for the row as an instruction, safe: log 7). -/
def execPktFmt0 (id : BitVec 4) (coreTemperature : BitVec 12) (reserved : BitVec 44) (voltage crc : Byte)
    (s : State) : Host.Outcome State Fault Refusal :=
  .next (checkedThen (deliver 0#4 id [coreTemperature.signExtend 32, voltage.setWidth 32])
    (writeQ (pktFmt0Bits id coreTemperature reserved voltage crc) s))

/-- PKT_FMT1: the packet is written to `Q` and decoded: its six fields by the pattern of 30_encoding R99 (log 7). -/
def execPktFmt1 (id : BitVec 4) (temperature1 temperature2 : BitVec 12) (secondary1 secondary2 : Byte)
    (pressure : BitVec 16) (voltage crc : Byte) (s : State) : Host.Outcome State Fault Refusal :=
  .next (checkedThen
    (deliver 1#4 id [temperature1.signExtend 32, temperature2.signExtend 32, secondary1.setWidth 32,
      secondary2.setWidth 32, pressure.setWidth 32, voltage.setWidth 32])
    (writeQ (pktFmt1Bits id temperature1 temperature2 secondary1 secondary2 pressure voltage crc) s))

/-- A packet of an unregistered format is written to `Q` and decoded: UnknownFormatError once its checksum matched
(30_encoding R103, 41_codec R151). -/
def rejectReserved (fmt id : BitVec 4) (payload : BitVec 64) (crc : Byte) (s : State) : State :=
  checkedThen (raiseError (.unknownFormat fmt)) (writeQ (pktReservedBits fmt id payload crc) s)

/-- PKT_RESERVED_2_3 (30_encoding R103; log 7). -/
def execPktReserved2to3 (fmt id : BitVec 4) (payload : BitVec 64) (crc : Byte) (s : State) :
    Host.Outcome State Fault Refusal := .next (rejectReserved fmt id payload crc s)

/-- PKT_RESERVED_4_7 (30_encoding R103; log 7). -/
def execPktReserved4to7 (fmt id : BitVec 4) (payload : BitVec 64) (crc : Byte) (s : State) :
    Host.Outcome State Fault Refusal := .next (rejectReserved fmt id payload crc s)

/-- PKT_RESERVED_8_15 (30_encoding R103; log 7). -/
def execPktReserved8to15 (fmt id : BitVec 4) (payload : BitVec 64) (crc : Byte) (s : State) :
    Host.Outcome State Fault Refusal := .next (rejectReserved fmt id payload crc s)

end Sys2Proof.Machine
end

