-- ==== Sys2Proof/Machine/Compiler.lean ====
section
/-!
DEFINITION. Machine/Compiler.lean: the Waveform Compiler, operation COMPILE (42_compiler R166), over the pseudo-forms
of 30_encoding R117.
-/

namespace Sys2Proof.Machine

/-- The code of SYNC (30_encoding R105). -/
def codeSync : SymCode := 0#3

/-- The code of ZERO (30_encoding R105). -/
def codeZero : SymCode := 2#3

/-- The code of ONE (30_encoding R105). -/
def codeOne : SymCode := 3#3

/-- The code of IM_GAP (30_encoding R105). -/
def codeImGap : SymCode := 4#3

/-- The code of the sentinel NONE (30_encoding R105). -/
def codeNone : SymCode := 7#3

/-- `BIT(b)`: ONE for a 1, ZERO for a 0 (30_encoding R117). -/
def bitSymbol (b : Bool) : SymCode := if b then codeOne else codeZero

/-- `COPY(P)`: the preamble, then one symbol per packet bit, packet bit 0 first (30_encoding R117). -/
def copySymbols (p : Packet) : List SymCode :=
  List.replicate Config.preambleCount codeSync ++
    (List.range Config.packetBits).map fun k => bitSymbol (pbit p k)

/-- `BURST(P, n)`: `n` copies, IM_GAP, NONE (30_encoding R106, R117). -/
def burst (p : Packet) (n : Nat) : List SymCode :=
  (List.replicate n (copySymbols p)).flatten ++ [codeImGap, codeNone]

/-- The playable symbols of a burst: `84n + 1` (42_compiler R169). -/
def burstLen (n : Nat) : Nat := (Config.preambleCount + Config.packetBits) * n + 1

/-- The entries a burst needs: its symbols and the sentinel (42_compiler R167). -/
def burstEntries (n : Nat) : Nat := burstLen n + 1

/-- A burst of `n` copies of `P` written from entry 0 on, with its length, and declared valid (42_compiler R166). -/
def writeBurst (n : Nat) (s : State) : State :=
  { s with
    tx.seq := writeSeqRun (burst s.tx.p n) 0 s.tx.seq
    tx.seqLen := BitVec.ofNat 9 (burstLen n)
    tx.seqValid := true }

/-- What COMPILE of `n` copies does: the overflow test, then the burst (42_compiler R166, R167). -/
def compileBurst (n : Nat) (s : State) : State :=
  if Config.cap < burstEntries n then
    raiseError (.sequenceOverflow (burstEntries n) Config.cap) { s with tx.seqValid := false }
  else writeBurst n s

/-- COMPILE (42_compiler R166); refused while PLAY runs, turned away while `P` or `REPEATS_IN` was never written
(42_compiler R173; 70_reset_and_hazards R264, R266). -/
def execCompile (s : State) : Host.Outcome State Fault Refusal :=
  launchTx (compileOperandsWritten s) (compileBurst s.tx.repeatsIn.toNat) s

end Sys2Proof.Machine
end

