-- ==== Sys2Proof/Machine/Matcher.lean ====
section
/-!
DEFINITION. Machine/Matcher.lean: the Capture Matcher/Decoder, operation MATCH (44_matcher R206), step by step through
the states of R216, one atomic operation to the host (00_scope R19).
-/

namespace Sys2Proof.Machine

/-- Any early exit of MATCH: `M_STATE <- Failed`, then the error is raised (44_matcher R206, R217). -/
def matchFail (e : ErrorInfo) (s : State) : State := raiseError e (setMState mFailed s)

/-- The start of MATCH (44_matcher R206, R216). -/
def matchBegin (s : State) : State := setMState mSearching (beginRx s)

/-- Step 1 found row `r` at index `n` (44_matcher R206, R209). -/
def matchRowFound (n : Nat) (r : Row) (s : State) : State :=
  setMState mRowMatched
    { s with rx.matchRow := n, rx.matchLen := r.length, rx.matchWritten := true }

/-- Step 2: the row is packed into `Q` (44_matcher R212). -/
def matchPack (r : Row) (s : State) : State := writeQ (packRow r s.rx.q) s

/-- Steps 4 to 6, once the checksum matched (44_matcher R214, R215). -/
def matchDispatch (s : State) : State :=
  match layout (fmtOf s.rx.q) with
  | some l => setMState mDecoded (extract l (setMState mFormatDispatched s))
  | none => matchFail (.unknownFormat (fmtOf s.rx.q)) s

/-- Step 3 and what follows (44_matcher R213). -/
def matchCheck (s : State) : State :=
  let s := computeQCrc s
  if packetCrc s.rx.q = storedCrc s.rx.q then matchDispatch (setMState mChecksumValidated s)
  else matchFail (.checksum (packetCrc s.rx.q) (storedCrc s.rx.q)) s

/-- What MATCH does with the capture snapshot the host presents (44_matcher R206). -/
def matchCapture (s : State) : State :=
  let s := matchBegin s
  match searchRows s.host.capture with
  | none => matchFail .rowNotFound s
  | some (n, r) => matchCheck (matchPack r (matchRowFound n r s))

/-- MATCH (44_matcher R206), over the capture the host presents; turned away while it has supplied none
(70_reset_and_hazards R264, R266). -/
def execMatchRows (s : State) : Host.Outcome State Fault Refusal :=
  launch (matchOperandsWritten s) matchCapture s

end Sys2Proof.Machine
end

