-- ==== Sys2Proof/Machine/Sequencer.lean ====
section
/-!
DEFINITION. Machine/Sequencer.lean: the Waveform Player: the launch of PLAY (43_sequencer R184, R199, R202), the eight
symbol codes (R187 to R193), and the sequencer's microsecond view (R182; 10_state R50).
-/

namespace Sys2Proof.Machine

/-- Is every entry below `n` written? -/
def seqWritten (m : SeqMem) : Nat → Bool
  | 0 => true
  | n + 1 => (readSeq m n).isSome && seqWritten m n

/-- Is the sequence one PLAY may be launched on: `SEQ_LEN <= CAP - 1`, NONE at index `SEQ_LEN`, and every entry below
it written (43_sequencer R202, 93_implementation_defined U4)? -/
def sequenceSound (s : State) : Bool :=
  decide (s.tx.seqLen.toNat ≤ Config.cap - 1) && decide (readSeq s.tx.seq s.tx.seqLen.toNat = some codeNone) &&
    seqWritten s.tx.seq s.tx.seqLen.toNat

/-- PLAY: the launch; the symbols follow one step each. With `SEQ_LEN = 0` nothing is fetched and PLAY is over
(43_sequencer R184, R199, R202; DEDUCED, safe: log 8). -/
def execPlay (s : State) : Host.Outcome State Fault Refusal :=
  if s.tx.txBusy then .refused .txBusy
  else if s.tx.seqValid = false then .refused .sequenceNotValid
  else if sequenceSound s = false then .refused .sequenceBroken
  else .next (endIfDone
    { beginTx s with tx.txBusy := true, tx.seqPc := 0#9, tx.phase := .between, tx.timer := 0#16 })

/-- SYNC: `ExecSymbol(600, 600)` (43_sequencer R187). -/
def execSync (s : State) : Host.Outcome State Fault Refusal := .next (playSymbol timingSync s)

/-- SYNC_GAP: `ExecSymbol(SYNC_GAP_HIGH, SYNC_GAP_LOW)`, both uninterpreted (43_sequencer R188; log 1). -/
def execSyncGap (s : State) : Host.Outcome State Fault Refusal := .next (playSymbol timingSyncGap s)

/-- ZERO: `ExecSymbol(400, 200)` (43_sequencer R189). -/
def execZero (s : State) : Host.Outcome State Fault Refusal := .next (playSymbol timingZero s)

/-- ONE: `ExecSymbol(200, 400)` (43_sequencer R190). -/
def execOne (s : State) : Host.Outcome State Fault Refusal := .next (playSymbol timingOne s)

/-- IM_GAP: `ExecSymbol(0, 1250)` (43_sequencer R191). -/
def execImGap (s : State) : Host.Outcome State Fault Refusal := .next (playSymbol timingImGap s)

/-- Reserved symbol code 5: ends PLAY as a premature sentinel does (43_sequencer R192). -/
def execSymReserved5 (s : State) : Host.Outcome State Fault Refusal := .next (abortPlay s)

/-- Reserved symbol code 6: ends PLAY as a premature sentinel does (43_sequencer R192). -/
def execSymReserved6 (s : State) : Host.Outcome State Fault Refusal := .next (abortPlay s)

/-- NONE fetched below `SEQ_LEN`: abort with PlaybackSequencingError (43_sequencer R193). -/
def execNoneSym (s : State) : Host.Outcome State Fault Refusal := .next (abortPlay s)

/-- What a fetch of the sequencer gives. -/
inductive Fetched where
  | code (c : SymCode)
  | fault (f : Fault)
  | refused (r : Refusal)
  deriving DecidableEq, Repr

/-- The fetch of the entry at `SEQ_PC` (43_sequencer R186, 20_memory R88). -/
def fetchSymbol (s : State) : Fetched :=
  if Config.cap ≤ s.tx.seqPc.toNat then .fault .seqIndexOutOfRange
  else
    match readSeq s.tx.seq s.tx.seqPc.toNat with
    | some c => .code c
    | none => .refused .seqEntryNoValue

/-- The timing of the symbol at `SEQ_PC`; no phase where there is none. -/
def currentTiming (s : State) : SymbolTiming :=
  ((readSeq s.tx.seq s.tx.seqPc.toNat).bind timing).getD ⟨0#16, 0#16⟩

/-- The low phase begins: `set_line(0)` and the timer is loaded; a zero duration ends the symbol at once
(43_sequencer R194, 60_exceptions R250). -/
def enterLow (t : SymbolTiming) (s : State) : State :=
  if t.low = 0#16 then completeSymbol s
  else { setLine false s with tx.phase := .low, tx.timer := t.low }

/-- The symbol begins: `set_line(1)` and the timer is loaded; a zero duration skips the high phase
(43_sequencer R194, 60_exceptions R250). -/
def enterSymbol (t : SymbolTiming) (s : State) : State :=
  if t.high = 0#16 then enterLow t s
  else { setLine true s with tx.phase := .high, tx.timer := t.high }

/-- One microsecond more in the trace: the delay that is running grows by one, a new one begins at one
(43_sequencer R182; DEDUCED, safe: log 9). -/
def elapseTrace : List Event → List Event
  | [] => [.delay 1]
  | [.delay d] => [.delay (d + 1)]
  | [e] => [e, .delay 1]
  | e :: e' :: es => e :: elapseTrace (e' :: es)

/-- One microsecond passes: `TIMER` counts down (10_state R50, 60_exceptions R250). -/
def countDown (s : State) : State :=
  { s with tx.timer := s.tx.timer - 1#16, out.trace := elapseTrace s.out.trace }

/-- One microsecond of a running delay: when `TIMER` reaches zero the sequencer goes on to the low phase or to the
next symbol; between symbols no delay runs (60_exceptions R250, 43_sequencer R194). -/
def elapse (s : State) : State :=
  match s.tx.phase with
  | .between => s
  | .high => if s.tx.timer = 1#16 then enterLow (currentTiming s) (countDown s) else countDown s
  | .low => if s.tx.timer = 1#16 then completeSymbol (countDown s) else countDown s

/-- `n` microseconds of running delays. -/
def elapseN : Nat → State → State
  | 0, s => s
  | n + 1, s => elapseN n (elapse s)

/-- The microseconds left of the current symbol. -/
def remaining (s : State) : Nat :=
  match s.tx.phase with
  | .between => 0
  | .high => s.tx.timer.toNat + (currentTiming s).low.toNat
  | .low => s.tx.timer.toNat

/-- The rest of a symbol that has begun. -/
def finishSymbol (s : State) : State := elapseN (remaining s) s

end Sys2Proof.Machine
end

