-- ==== Sys2Proof/Machine/Dispatch.lean ====
section
/-! DEFINITION. Machine/Dispatch.lean: one arm per instruction, one direct call of its meaning. -/

namespace Sys2Proof.Machine

/-- The meaning of every instruction. -/
def exec (i : Instr) (s : State) : Host.Outcome State Fault Refusal :=
  match i with
  | .opNone => Sys2Proof.Machine.execOpNone s
  | .crc8 => Sys2Proof.Machine.execCrc8 s
  | .encode => Sys2Proof.Machine.execEncode s
  | .decode => Sys2Proof.Machine.execDecode s
  | .compile => Sys2Proof.Machine.execCompile s
  | .play => Sys2Proof.Machine.execPlay s
  | .matchRows => Sys2Proof.Machine.execMatchRows s
  | .opReserved => Sys2Proof.Machine.execOpReserved s
  | .sync => Sys2Proof.Machine.execSync s
  | .syncGap => Sys2Proof.Machine.execSyncGap s
  | .zero => Sys2Proof.Machine.execZero s
  | .one => Sys2Proof.Machine.execOne s
  | .imGap => Sys2Proof.Machine.execImGap s
  | .symReserved5 => Sys2Proof.Machine.execSymReserved5 s
  | .symReserved6 => Sys2Proof.Machine.execSymReserved6 s
  | .noneSym => Sys2Proof.Machine.execNoneSym s
  | .pktFmt0 id t r v c => Sys2Proof.Machine.execPktFmt0 id t r v c s
  | .pktFmt1 id t1 t2 s1 s2 p v c => Sys2Proof.Machine.execPktFmt1 id t1 t2 s1 s2 p v c s
  | .pktReserved2to3 fmt id payload c => Sys2Proof.Machine.execPktReserved2to3 fmt id payload c s
  | .pktReserved4to7 fmt id payload c => Sys2Proof.Machine.execPktReserved4to7 fmt id payload c s
  | .pktReserved8to15 fmt id payload c => Sys2Proof.Machine.execPktReserved8to15 fmt id payload c s

end Sys2Proof.Machine
end

