-- ==== Sys2Proof/Machine/HostActions.lean ====
section
/-!
DEFINITION. Machine/HostActions.lean: what the host may do that is no operation: write operand registers and buffers,
present the operands of CRC8 and of MATCH (10_state R43, R47; 70_reset_and_hazards R264, R271, R273), and reset
(70_reset_and_hazards R260 to R263).
-/

namespace Sys2Proof.Machine

/-- The mark of byte or slot `i` among `n`. -/
def markBit (n i : Nat) : BitVec n := 1#n <<< i

/-- A host write of a register the transmit half owns: refused while `TX_BUSY = 1`
(70_reset_and_hazards R271, 20_memory R85; log 18). -/
def txWrite (s : State) (tx : TxHalf) : Host.Outcome State Fault Refusal :=
  if s.tx.txBusy then .refused .txBusy else .next { s with tx := tx }

/-- `FMT_IN <- v` (10_state R28). -/
def hostWriteFmtIn (v : Word) (s : State) : Host.Outcome State Fault Refusal :=
  txWrite s { s.tx with fmtIn := v, written.fmtIn := true }

/-- `ID_IN <- v` (10_state R28). -/
def hostWriteIdIn (v : Word) (s : State) : Host.Outcome State Fault Refusal :=
  txWrite s { s.tx with idIn := v, written.idIn := true }

/-- `F_IN[slot] <- v` (10_state R28). -/
def hostWriteFIn (i : Fin 6) (v : Word) (s : State) : Host.Outcome State Fault Refusal :=
  txWrite s { s.tx with fIn := setSlot s.tx.fIn i.val v, written.fIn := s.tx.written.fIn ||| markBit 6 i.val }

/-- `REPEATS_IN <- v` (10_state R28). -/
def hostWriteRepeatsIn (v : Repeats) (s : State) : Host.Outcome State Fault Refusal :=
  txWrite s { s.tx with repeatsIn := v, written.repeatsIn := true }

/-- `P[i] <- b` (10_state R29, R43). -/
def hostWriteP (i : Fin 10) (b : Byte) (s : State) : Host.Outcome State Fault Refusal :=
  txWrite s { s.tx with p := setByte s.tx.p i.val b, written.p := s.tx.written.p ||| markBit 10 i.val }

/-- `SEQ[i] <- c` of a hand-written sequence (10_state R43). -/
def hostWriteSeq (i : Fin 338) (c : SymCode) (s : State) : Host.Outcome State Fault Refusal :=
  txWrite s { s.tx with seq := writeSeq s.tx.seq i.val c }

/-- `SEQ_LEN <- v` of a hand-written sequence (10_state R43). R43 lets the host write it "together with the sequence
memory"; that it is a write of its own, which needs no write of an entry, is DESIGN CHOICE, safe (log 25). -/
def hostWriteSeqLen (v : SeqIndex) (s : State) : Host.Outcome State Fault Refusal :=
  txWrite s { s.tx with seqLen := v }

/-- `SEQ_VALID <- b` of a hand-written sequence (10_state R37, R43). R43 lets the host write it "together with the
sequence memory"; that it is a write of its own, so that it may be set or cleared with no entry written, after an
overflowed COMPILE too, is DESIGN CHOICE, safe (log 25). -/
def hostWriteSeqValid (b : Bool) (s : State) : Host.Outcome State Fault Refusal :=
  txWrite s { s.tx with seqValid := b }

/-- `Q[i] <- b`: the receive half is idle between steps, so the write is always allowed (10_state R30,
70_reset_and_hazards R273). -/
def hostWriteQ (i : Fin 10) (b : Byte) (s : State) : Host.Outcome State Fault Refusal :=
  .next { s with rx.q := setByte s.rx.q i.val b, rx.qWritten := s.rx.qWritten ||| markBit 10 i.val }

/-- The host presents the byte run and `init` of CRC8 (40_crc8 R126). -/
def hostPresentRun (bytes : List Byte) (init : Byte) (s : State) : Host.Outcome State Fault Refusal :=
  .next { s with host.crcRun := bytes, host.crcInit := init, host.runWritten := true }

/-- The host presents a capture snapshot, which is within the buffer's capacity (10_state R44, R47; log 16). -/
def hostPresentCapture (rows : List Row) (s : State) : Host.Outcome State Fault Refusal :=
  if captureFits rows then .next { s with host.capture := rows, host.captureWritten := true }
  else .refused .captureTooLarge

/-- The reset event: every piece of the block's state takes its value of 10_state R52, the line goes low, a PLAY ends
at once and no error is recorded; "every buffer and operand register" is as nothing had written it, the operands of CRC8
and MATCH too; the constants, the host's plans, the outputs already delivered and the mark of the run stay
(70_reset_and_hazards R260, R261, R262, R264; log 2, log 10). -/
def resetEvent (s : State) : State :=
  { State.reset with
    host := { State.reset.host with queue := s.host.queue }
    out := s.out }

end Sys2Proof.Machine
end

