-- ==== Sys2Proof/Machine/Fetch.lean ====
section
/-!
DEFINITION. Machine/Fetch.lean: who moves next and with what: the host's next action, or the sequencer at `SEQ_PC`
(00_scope R23; 43_sequencer R184, R186; 70_reset_and_hazards R263, R270).
-/

namespace Sys2Proof.Machine

/-- What the next step is: an instruction to run in a state, or an outcome that is settled already. -/
inductive Turn where
  | run (i : Instr) (s : State)
  | settled (o : Host.Outcome State Fault Refusal)

/-- The sequencer's turn. Idle, it does nothing (60_exceptions R254). Inside a symbol, it finishes it. Between symbols
it fetches the entry at `SEQ_PC`, or ends PLAY when there is none left (43_sequencer R184). -/
def sequencerTurn (s : State) : Turn :=
  if s.tx.txBusy = false then .settled (.next s)
  else if s.tx.phase ≠ .between then .settled (.next (finishSymbol s))
  else if s.tx.seqLen.toNat ≤ s.tx.seqPc.toNat then .settled (.next (endIfDone s))
  else
    match fetchSymbol s with
    | .code c => .run (decodeWord (.symbol c)) s
    | .fault f => .settled (.fault f)
    | .refused r => .settled (.refused r)

/-- One microsecond of the sequencer's time: between symbols the next one begins, or PLAY is aborted; a
symbol without a phase is over in no time and the step ends there (43_sequencer R182, R184, R193, R194; log 9). -/
def sequencerTick (s : State) : Host.Outcome State Fault Refusal :=
  if s.tx.txBusy = false then .next s
  else if s.tx.phase ≠ .between then .next (elapse s)
  else if s.tx.seqLen.toNat ≤ s.tx.seqPc.toNat then .next (endIfDone s)
  else
    match fetchSymbol s with
    | .code c =>
      match timing c with
      | some t => .next (elapse (enterSymbol t s))
      | none => .next (abortPlay s)
    | .fault f => .fault f
    | .refused r => .refused r

/-- The turn a host action makes. -/
def hostTurn (a : HostAction) (s : State) : Turn :=
  match a with
  | .pass => sequencerTurn s
  | .tick => .settled (sequencerTick s)
  | .operation c => .run (decodeWord (.operation c)) s
  | .packet p => .run (decodeWord (.packet p)) s
  | .writeFmtIn v => .settled (hostWriteFmtIn v s)
  | .writeIdIn v => .settled (hostWriteIdIn v s)
  | .writeFIn i v => .settled (hostWriteFIn i v s)
  | .writeRepeatsIn v => .settled (hostWriteRepeatsIn v s)
  | .writeP i b => .settled (hostWriteP i b s)
  | .writeQ i b => .settled (hostWriteQ i b s)
  | .writeSeq i c => .settled (hostWriteSeq i c s)
  | .writeSeqLen v => .settled (hostWriteSeqLen v s)
  | .writeSeqValid b => .settled (hostWriteSeqValid b s)
  | .presentRun bytes init => .settled (hostPresentRun bytes init s)
  | .presentCapture rows => .settled (hostPresentCapture rows s)
  | .reset => .settled (.next (resetEvent s))

/-- The host's pending actions once the first is taken. -/
def dropAction (rest : List HostAction) (s : State) : State := { s with host.queue := rest }

/-- The next turn: the host's first pending action, or, with none pending, the sequencer (log 4). -/
def nextTurn (s : State) : Turn :=
  match s.host.queue with
  | [] => sequencerTurn s
  | a :: rest => hostTurn a (dropAction rest s)

/-- The host action that makes a word the next instruction. A symbol word has none: the sequencer fetches symbols
itself (log 6). -/
def actionOfWord : FetchWord → Option HostAction
  | .operation c => some (.operation c)
  | .packet p => some (.packet p)
  | .symbol _ => none

/-- A host action put before all pending ones. -/
def pushAction (a : HostAction) (s : State) : State := { s with host.queue := a :: s.host.queue }

end Sys2Proof.Machine
end

