-- ==== Sys2Proof/Machine/Step.lean ====
section
/-! DEFINITION. Machine/Step.lean: one step of the machine, and where its next instruction is placed. -/

namespace Sys2Proof.Machine

/-- One step: the next turn's instruction is run, or its settled outcome is taken. -/
def step (s : State) : Host.Outcome State Fault Refusal :=
  match nextTurn s with
  | .run i t => exec i t
  | .settled o => o

/-- The state with a word of the opcode table as what the host presents next, so that the next step runs exactly it;
a word that is none of the table's changes nothing (log 5, log 6). -/
def State.withFetchWord (s : State) (nbits w : Nat) : State :=
  match (tableWord nbits w).bind actionOfWord with
  | some a => pushAction a s
  | none => s

end Sys2Proof.Machine
end

