-- ==== Sys2Proof/Machine/Views.lean ====
section
/-!
DEFINITION. Machine/Views.lean: what the host reads, as pure functions: result registers, which hold no value while
`OUT_VALID = 0` (10_state R31, R32, R34; 60_exceptions R240; log 23), the scaled view (41_codec R156), the waveform of a trace
(43_sequencer R183), the rendering of a packet and the written forms of a sequence (30_encoding R116, R118). No step
reads any of them; a read has no side effect (20_memory R73).
-/

namespace Sys2Proof.Machine

/-- A result register's value, none while `OUT_VALID = 0` (10_state R31). -/
def whenValid {α : Type} (s : State) (v : α) : Option α := if s.rx.outValid then some v else none

/-- `FMT_OUT` as the host reads it (10_state R31). -/
def readFmtOut (s : State) : Option (BitVec 4) := whenValid s s.rx.fmtOut

/-- `ID_OUT` as the host reads it (10_state R31). -/
def readIdOut (s : State) : Option (BitVec 4) := whenValid s s.rx.idOut

/-- `NFIELDS_OUT` as the host reads it (10_state R31). -/
def readNFieldsOut (s : State) : Option (BitVec 3) := whenValid s s.rx.nFieldsOut

/-- `F_OUT[n]` as the host reads it: no value at a slot the last decode did not write (10_state R31, 41_codec R152). -/
def readFOut (s : State) (n : Nat) : Option Word :=
  if n < s.rx.nFieldsOut.toNat then whenValid s (slot s.rx.fOut n) else none

/-- `CRC_OUT` as the host reads it: no value before the first CRC8 (10_state R34, R52). -/
def readCrcOut (s : State) : Option Byte := if s.crc.outWritten then some s.crc.out else none

/-- `MATCH_ROW` and `MATCH_LEN` as the host reads them: no value before a MATCH found a row (10_state R32, R52). -/
def readMatch (s : State) : Option (Nat × Nat) :=
  if s.rx.matchWritten then some (s.rx.matchRow, s.rx.matchLen) else none

/-- A raw value scaled by its field: `raw x scale + offset`, exact (30_encoding R102, 41_codec R156). -/
def scaledValue (d : FieldDesc) (raw : Word) : Rat := (raw.toInt : Rat) * d.scale + d.offset

/-- The scaled view of a successful decode, with the scaled names; none when no result stands (41_codec R156). -/
def scaledView (s : State) : Option (List (String × Rat)) :=
  if s.rx.outValid then
    (layout s.rx.fmtOut).map fun l =>
      l.zipIdx.map fun (d, n) => (d.scaledName, scaledValue d (slot s.rx.fOut n))
  else none

/-- One (level, duration) pair before a waveform, merged when the levels are equal (43_sequencer R183). -/
def mergePair (level : Bool) (us : Nat) : List (Bool × Nat) → List (Bool × Nat)
  | [] => [(level, us)]
  | (l, d) :: w => if l = level then (level, us + d) :: w else (level, us) :: (l, d) :: w

/-- The waveform of a trace from a line level: each delay at the latest level, neighbours of equal level merged
(43_sequencer R183). -/
def waveform : Bool → List Event → List (Bool × Nat)
  | _, [] => []
  | _, .line b :: es => waveform b es
  | level, .delay d :: es => mergePair level d (waveform level es)
  | level, .abort _ :: es => waveform level es

/-- The microseconds a trace lasts, the sum of its delays (70_reset_and_hazards R280). -/
def duration : List Event → Nat
  | [] => 0
  | .delay d :: es => d + duration es
  | .line _ :: es => duration es
  | .abort _ :: es => duration es

/-- One lowercase hexadecimal digit. -/
def hexDigit (n : BitVec 4) : Char := "0123456789abcdef".toList.getD n.toNat '0'

/-- The hexadecimal rendering: 20 digits, byte 0 first, high nibble first (30_encoding R118). -/
def renderHex (p : Packet) : String :=
  String.ofList ((List.range 20).map fun n => hexDigit (field p (4 * n) 4))

/-- The bit-string rendering: 80 characters, packet bit 0 first (30_encoding R118). -/
def renderBits (p : Packet) : String :=
  String.ofList ((List.range 80).map fun k => if pbit p k then '1' else '0')

/-- The code string of a sequence: one digit per entry (30_encoding R116). -/
def codeString (codes : List SymCode) : String :=
  String.ofList (codes.map fun c => "01234567".toList.getD c.toNat '0')

/-- The mnemonic of a symbol code; the reserved codes have none in the source and are written as the opcode table
writes them (30_encoding R105, R116). -/
def symbolName (c : SymCode) : String :=
  match c.toNat with
  | 0 => "SYNC"
  | 1 => "SYNC_GAP"
  | 2 => "ZERO"
  | 3 => "ONE"
  | 4 => "IM_GAP"
  | 5 => "SYM_RESERVED_5"
  | 6 => "SYM_RESERVED_6"
  | _ => "NONE"

/-- The written form of a sequence: its mnemonics separated by spaces (30_encoding R116). -/
def mnemonicString (codes : List SymCode) : String := " ".intercalate (codes.map symbolName)

end Sys2Proof.Machine
end

