-- ==== Sys2Proof/Safety.lean ====
section
/-!
DEFINITION. Safety.lean: what counts as a run inside the host's contract and as a good run (70_reset_and_hazards R264,
R266, R282), and the invariant of the machine's states.
-/

namespace Sys2Proof.Safety

open Sys2Proof.Machine

/-- Has the host supplied every operand the instruction reads, as its contract asks (70_reset_and_hazards R264)? Where
it has not, CRC8, ENCODE, DECODE, COMPILE and MATCH are turned away (R266; log 3) and PLAY is refused (43_sequencer
R199). -/
def operandsWritten (i : Instr) (s : State) : Bool :=
  match i with
  | .encode => encodeOperandsWritten s
  | .compile => compileOperandsWritten s
  | .play => s.tx.seqValid
  | .decode => decodeOperandsWritten s
  | .opNone => true
  | .crc8 => crc8OperandsWritten s
  | .matchRows => matchOperandsWritten s
  | .opReserved => true
  | .sync => true
  | .syncGap => true
  | .zero => true
  | .one => true
  | .imGap => true
  | .symReserved5 => true
  | .symReserved6 => true
  | .noneSym => true
  | .pktFmt0 _ _ _ _ _ => true
  | .pktFmt1 _ _ _ _ _ _ _ _ => true
  | .pktReserved2to3 _ _ _ _ => true
  | .pktReserved4to7 _ _ _ _ => true
  | .pktReserved8to15 _ _ _ _ => true

/-- Has every operation of the run so far found its operands written (60_exceptions R248, 70_reset_and_hazards R266)? -/
def runInsideContract (s : State) : Bool := !s.out.runMarked

/-- The step inside the host's contract: none for a launch that is turned away and none after it in that run, for a claim
that is to end where the contract does (60_exceptions R248, 70_reset_and_hazards R266). Everywhere else it is the
machine's step. -/
def contractStep (s : State) : Option State :=
  match step s with
  | .next t => if runInsideContract t then some t else none
  | .fault _ => none
  | .refused _ => none

/-- A transmit run is over, and good (70_reset_and_hazards R282). -/
def txRunGood (s : State) : Bool := !s.tx.txBusy && decide (s.tx.txErr = 0#3)

/-- A receive run is good (70_reset_and_hazards R282). -/
def rxRunGood (s : State) : Bool := decide (s.rx.rxErr = 0#3) && s.rx.outValid

/-- While PLAY runs, `SEQ_PC < SEQ_LEN` and the sequence is one PLAY may be launched on (10_state R35, R37;
43_sequencer R202). -/
def playInv (s : State) : Prop :=
  s.tx.txBusy = true → s.tx.seqPc.toNat < s.tx.seqLen.toNat ∧ sequenceSound s = true

/-- The sequencer's hidden state: a delay runs exactly inside a phase, a phase runs only during PLAY, and the line is
high in the high phase and low in the low phase (10_state R50, 43_sequencer R182). -/
def phaseInv (s : State) : Prop :=
  (s.tx.phase = .between ↔ s.tx.timer = 0#16) ∧
  (s.tx.txBusy = false → s.tx.phase = .between) ∧
  (s.tx.phase = .high → s.tx.line = true) ∧
  (s.tx.phase = .low → s.tx.line = false)

/-- The result registers while `OUT_VALID = 1`: no receive error, a registered format and its field count
(10_state R31, R48). -/
def resultInv (s : State) : Prop :=
  s.rx.outValid = true →
    s.rx.rxErr = 0#3 ∧ ((s.rx.fmtOut = 0#4 ∧ s.rx.nFieldsOut = 2#3) ∨ (s.rx.fmtOut = 1#4 ∧ s.rx.nFieldsOut = 6#3))

/-- The invariant of every reachable state: the sequence memory in its canonical form, the status registers at codes
that are ever written (10_state R40, R41), a capture within the buffer's capacity (10_state R47), and the three clauses
above. -/
def Inv (s : State) : Prop :=
  SeqMem.wf s.tx.seq = true ∧
  (s.tx.txErr = 0#3 ∨ s.tx.txErr = 4#3 ∨ s.tx.txErr = 5#3) ∧
  s.rx.rxErr.toNat ≤ 3 ∧
  s.rx.mState.toNat ≤ 5 ∧
  captureFits s.host.capture = true ∧
  playInv s ∧ phaseInv s ∧ resultInv s

end Sys2Proof.Safety
end

