-- ==== Sys2Proof/Certificates/Slice0/Obligations.lean ====
section
/-!
DEFINITION. Certificates/Slice0/Obligations.lean: the statements for the provers, and the reference functions they are
stated with.
-/

namespace Sys2Proof.Ref

open Sys2Proof.Machine

/-- The CRC of a byte run with no table: eight bit-serial steps per byte (40_crc8 R121, R125). -/
def serialCrc : List Byte → Byte → Byte
  | [], r => r
  | b :: bs, r => serialCrc bs (crcConstructed (r ^^^ b))

/-- The packet ENCODE has to build, by the patterns of spec/opcode_table.json, with a given CRC byte (30_encoding R98,
R99, R103; 41_codec R143). -/
def patternWord (fmt id : Word) (f : FieldRegs) (crc : Byte) : Packet :=
  if fmt.setWidth 4 = 0#4 then pktFmt0Bits (id.setWidth 4) (f.f0.setWidth 12) 0#44 (f.f1.setWidth 8) crc
  else if fmt.setWidth 4 = 1#4 then
    pktFmt1Bits (id.setWidth 4) (f.f0.setWidth 12) (f.f1.setWidth 12) (f.f2.setWidth 8) (f.f3.setWidth 8)
      (f.f4.setWidth 16) (f.f5.setWidth 8) crc
  else pktReservedBits (fmt.setWidth 4) (id.setWidth 4) 0#64 crc

/-- The events of one whole symbol of given durations (43_sequencer R194). -/
def symbolEvents (t : SymbolTiming) : List Event :=
  (if t.high = 0#16 then [] else [Event.line true, Event.delay t.high.toNat]) ++
    (if t.low = 0#16 then [] else [Event.line false, Event.delay t.low.toNat])

/-- The level of the line after a whole symbol (43_sequencer R194). -/
def symbolLevel (t : SymbolTiming) (before : Bool) : Bool :=
  if t.low = 0#16 then (if t.high = 0#16 then before else true) else false

/-- A state after one whole symbol of given durations: its events, the level it leaves, `SEQ_PC + 1`, `TX_BUSY` cleared
when that is not below `SEQ_LEN`; all else as before (43_sequencer R184, R194, R198). -/
def afterSymbol (t : SymbolTiming) (s : State) : State :=
  { s with
    tx.line := symbolLevel t s.tx.line
    tx.seqPc := s.tx.seqPc + 1#9
    tx.phase := .between
    tx.timer := 0#16
    tx.txBusy := s.tx.txBusy && decide ((s.tx.seqPc + 1#9).toNat < s.tx.seqLen.toNat)
    out.trace := s.out.trace ++ symbolEvents t }

/-- A state after the abort of PLAY at `SEQ_PC` (43_sequencer R193). -/
def afterAbort (s : State) : State :=
  { s with
    tx.txErr := 5#3
    tx.txBusy := false
    out.trace := s.out.trace ++ [.abort s.tx.seqPc.toNat]
    out.reports := s.out.reports ++ [.playbackSequencing s.tx.seqPc.toNat] }

/-- The events of the first `n` entries of a sequence, in index order; an entry without a timing has none
(43_sequencer R197). -/
def sequenceEvents (m : SeqMem) : Nat → List Event
  | 0 => []
  | n + 1 => sequenceEvents m n ++ (((readSeq m n).bind timing).map symbolEvents).getD []

/-- Has entry `i` a timing, so that it is one of the symbols that are played (43_sequencer R185)? -/
def playable (m : SeqMem) (i : Nat) : Prop := ∃ t, (readSeq m i).bind timing = some t

/-- The sentinel rule of a sequence PLAY may be launched on: its length leaves room for the sentinel below `CAP` = 338, NONE
stands at index `SEQ_LEN`, and every entry below it was written (43_sequencer R202; 93_implementation_defined U4). -/
def sentinelRule (s : State) : Prop :=
  s.tx.seqLen.toNat ≤ 337 ∧ readSeq s.tx.seq s.tx.seqLen.toNat = some 7#3 ∧
    ∀ i < s.tx.seqLen.toNat, readSeq s.tx.seq i ≠ none

/-- Would the operation of this code read an operand that nothing has written since reset (70_reset_and_hazards R264,
R266)? CRC8 reads the byte run and `init`; ENCODE `FMT_IN`, `ID_IN` and the slots of its layout; DECODE `Q`; COMPILE
`REPEATS_IN` and `P`; MATCH the capture. -/
def readsUnwritten (c : OpCode) (s : State) : Prop :=
  (c = 1#3 ∧ s.host.runWritten = false) ∨
  (c = 2#3 ∧ (s.tx.written.fmtIn = false ∨ s.tx.written.idIn = false ∨
    ∃ l m, layout (s.tx.fmtIn.setWidth 4) = some l ∧ m < l.length ∧ s.tx.written.fIn.getLsbD m = false)) ∨
  (c = 3#3 ∧ ∃ i < 10, s.rx.qWritten.getLsbD i = false) ∨
  (c = 4#3 ∧ (s.tx.written.repeatsIn = false ∨ ∃ i < 10, s.tx.written.p.getLsbD i = false)) ∨
  (c = 6#3 ∧ s.host.captureWritten = false)

/-- `r` is the row at index `n`, its bit count is from 80 to 82, and another row of the capture is the same row
(44_matcher R207 to R209). -/
def repeatedAt (rows : List Row) (n : Nat) (r : Row) : Prop :=
  rows[n]? = some r ∧ 80 ≤ r.length ∧ r.length ≤ 82 ∧ ∃ m, m ≠ n ∧ rows[m]? = some r

/-- A receive-half state after a checksum failure of the packet in `Q` (41_codec R149, R154). -/
def afterChecksumError (s : State) : State :=
  { s with
    rx.rxErr := 1#3
    rx.outValid := false
    crc.rem := packetCrc s.rx.q
    out.reports := s.out.reports ++ [.checksum (packetCrc s.rx.q) (storedCrc s.rx.q)] }

/-- A receive-half state after the packet in `Q` was found to have an unregistered format (41_codec R151, R154). -/
def afterUnknownFormat (s : State) : State :=
  { s with
    rx.rxErr := 3#3
    rx.outValid := false
    crc.rem := packetCrc s.rx.q
    out.reports := s.out.reports ++ [.unknownFormat (fmtOf s.rx.q)] }

/-- A state after a launch that was turned away: the run is marked, nothing else is changed (60_exceptions R248,
70_reset_and_hazards R266; log 3). -/
def turnedAway (s : State) : State := { s with out.runMarked := true }

/-- `Q` written whole, nothing else changed (10_state R30). -/
def withQ (q : Packet) (s : State) : State := { s with rx.q := q, rx.qWritten := BitVec.allOnes 10 }

/-- The state after a decode of a packet of format 0 standing in `Q` that succeeded, with the values of its two fields
(41_codec R148, R152). -/
def afterFmt0 (id : BitVec 4) (v0 v1 : Word) (s : State) : State :=
  { s with
    rx.rxErr := 0#3
    rx.outValid := true
    rx.fmtOut := 0#4
    rx.idOut := id
    rx.nFieldsOut := 2#3
    rx.fOut.f0 := v0
    rx.fOut.f1 := v1
    crc.rem := packetCrc s.rx.q }

/-- The state after a decode of a packet of format 1 standing in `Q` that succeeded, with the values of its six fields
(41_codec R148, R152). -/
def afterFmt1 (id : BitVec 4) (values : FieldRegs) (s : State) : State :=
  { s with
    rx.rxErr := 0#3
    rx.outValid := true
    rx.fmtOut := 1#4
    rx.idOut := id
    rx.nFieldsOut := 6#3
    rx.fOut := values
    crc.rem := packetCrc s.rx.q }

end Sys2Proof.Ref

open Sys2Proof Sys2Proof.Machine Sys2Proof.Safety

/-! ### Encoding -/

/-- Decoding the word of a well-formed instruction gives it back, every operand at every value (30_encoding R119). -/
def Obligations.DecodeOfEncodeIsIdentity : Prop :=
  ∀ i : Instr, i.wf = true → decodeWord (encode i) = i

/-- Encoding the instruction of a word gives the word back, so no bit of any word is dropped, and what the decoder
answers is well formed (30_encoding R119: the rows are exclusive and exhaustive). -/
def Obligations.EncodeOfDecodeIsIdentity : Prop :=
  ∀ w : FetchWord, encode (decodeWord w) = w ∧ (decodeWord w).wf = true

/-- The bytes of a well-formed instruction's word decode to it: byte 0 of a packet first (00_scope R14); where a 3-bit
code stands in a byte is the model's choice (log 6). -/
def Obligations.DecodeOfBytesIsIdentity : Prop :=
  ∀ i : Instr, i.wf = true → decodeBytes (encodingOf i) (wordBytes (encode i)) = .ok i

/-- A few words written out from the encodings of 30_encoding R105, R109, R98, R99, R103. -/
def Obligations.SampleWordsDecode : Prop :=
  decodeWord (.operation 0b001#3) = .crc8 ∧
  decodeWord (.operation 0b110#3) = .matchRows ∧
  decodeWord (.symbol 0b100#3) = .imGap ∧
  decodeWord (.symbol 0b111#3) = .noneSym ∧
  decodeWord (.packet 0x090e00d72d322735bc91#80) =
    .pktFmt0 9#4 0x0e0#12 0x0d72d322735#44 0xbc#8 0x91#8 ∧
  decodeWord (.packet 0x120d7fcb2f63279485de#80) =
    .pktFmt1 2#4 0x0d7#12 0xfcb#12 0x2f#8 0x63#8 0x2794#16 0x85#8 0xde#8 ∧
  decodeWord (.packet 0x740000000000000000b7#80) = .pktReserved4to7 7#4 4#4 0#64 0xb7#8

/-! ### The step -/

/-- A step runs the decoded instruction: an operation code or a packet the host presents, taken from its pending
actions, and the symbol fetched at `SEQ_PC` when PLAY is between symbols and the host does nothing (43_sequencer R186;
the pending actions are the model's own, log 4). -/
def Obligations.StepRunsDecodedInstruction : Prop :=
  (∀ (s : State) (c : OpCode) (rest : List HostAction), s.host.queue = .operation c :: rest →
    step s = exec (decodeWord (.operation c)) { s with host.queue := rest }) ∧
  (∀ (s : State) (p : Packet) (rest : List HostAction), s.host.queue = .packet p :: rest →
    step s = exec (decodeWord (.packet p)) { s with host.queue := rest }) ∧
  (∀ (s : State) (c : SymCode), s.host.queue = [] → s.tx.txBusy = true → s.tx.phase = .between →
    s.tx.seqPc.toNat < s.tx.seqLen.toNat → s.tx.seqPc.toNat < 338 →
    readSeq s.tx.seq s.tx.seqPc.toNat = some c → step s = exec (decodeWord (.symbol c)) s) ∧
  (∀ (s : State) (c : SymCode) (rest : List HostAction), s.host.queue = .pass :: rest → s.tx.txBusy = true →
    s.tx.phase = .between → s.tx.seqPc.toNat < s.tx.seqLen.toNat → s.tx.seqPc.toNat < 338 →
    readSeq s.tx.seq s.tx.seqPc.toNat = some c →
    step s = exec (decodeWord (.symbol c)) { s with host.queue := rest })

/-- A word of the opcode table placed by `withFetchWord` is what the next step runs (log 5, log 6). -/
def Obligations.FetchWordRunsNext : Prop :=
  ∀ (s : State) (nbits w : Nat) (i : Instr), decodeTableWord nbits w = some i →
    step (s.withFetchWord nbits w) = exec i s

/-- Between operations the block is idle: with no PLAY running and nothing pending a step changes nothing, and with a pass
or a tick pending it only takes that action (60_exceptions R254; 70_reset_and_hazards R263; the actions are log 4). -/
def Obligations.IdleBlockHoldsItsState : Prop :=
  (∀ s : State, s.tx.txBusy = false → s.host.queue = [] → step s = .next s) ∧
  (∀ (s : State) (a : HostAction) (rest : List HostAction), s.tx.txBusy = false → s.host.queue = a :: rest →
    (a = .pass ∨ a = .tick) → step s = .next { s with host.queue := rest })

/-! ### Reset -/

/-- What reset leaves, the values 10_state R52 gives: line low, nothing running, no error, Searching, nothing valid,
`SEQ_LEN` and `SEQ_PC` 0, between symbols with the timer at 0, and no register, no sequence entry and no operand of an
operation recorded as written; the run not marked (70_reset_and_hazards R264; these records are log 3). -/
def Obligations.ResetLeavesTheGivenValues : Prop :=
  State.reset.tx.line = false ∧ State.reset.tx.txBusy = false ∧ State.reset.tx.txErr = 0#3 ∧
  State.reset.rx.rxErr = 0#3 ∧ State.reset.rx.mState = 0#3 ∧ State.reset.rx.outValid = false ∧
  State.reset.tx.seqValid = false ∧ State.reset.tx.seqLen = 0#9 ∧ State.reset.tx.seqPc = 0#9 ∧
  State.reset.tx.phase = .between ∧ State.reset.tx.timer = 0#16 ∧
  (∀ i, readSeq State.reset.tx.seq i = none) ∧
  State.reset.tx.written = ⟨false, false, 0#6, false, 0#10⟩ ∧ State.reset.rx.qWritten = 0#10 ∧
  readMatch State.reset = none ∧ readCrcOut State.reset = none ∧
  State.reset.host.runWritten = false ∧ State.reset.host.captureWritten = false ∧
  State.reset.out.runMarked = false

/-- The reset event gives both halves, the engine and the operands of CRC8 and MATCH their state after reset, whatever ran;
what the host plans and the outputs already delivered stay, which is the model's choice (70_reset_and_hazards R260 to
R262, R264; log 10). -/
def Obligations.ResetEventResetsTheBlock : Prop :=
  ∀ (s : State) (rest : List HostAction), s.host.queue = .reset :: rest →
    step s = .next { tx := State.reset.tx, rx := State.reset.rx, crc := State.reset.crc,
                     host := { State.reset.host with queue := rest },
                     out := s.out }

/-! ### The invariant -/

/-- The state after reset meets the invariant. -/
def Obligations.ResetMeetsTheInvariant : Prop := Safety.Inv State.reset

/-- Every step keeps the invariant: the canonical form of the sequence memory, the legal codes of `TX_ERR`, `RX_ERR` and
`M_STATE`, a capture within the buffer's capacity, what holds while PLAY runs, the sequencer's hidden state, and what
`OUT_VALID = 1` promises (10_state R31, R35, R37, R40, R41, R47, R50). -/
def Obligations.EveryStepKeepsTheInvariant : Prop :=
  ∀ s t : State, Safety.Inv s → step s = .next t → Safety.Inv t

/-- From a state that meets the invariant no step faults, and no fetch meets an entry without value: "An index
`i >= CAP` never occurs" (20_memory R88). -/
def Obligations.NoFetchGoesWrong : Prop :=
  ∀ s : State, Safety.Inv s → (∀ f, step s ≠ .fault f) ∧ step s ≠ .refused .seqEntryNoValue

/-- Once started, PLAY needs nothing from the host: from a state that meets the invariant, with nothing pending, the
step always answers a next state (43_sequencer R196). -/
def Obligations.SequencerAlwaysGoesOn : Prop :=
  ∀ s : State, Safety.Inv s → s.host.queue = [] → ∃ t, step s = .next t

/-! ### The Checksum Engine -/

/-- CRC8 takes one table step per byte, in the order of the run, from the `init` operand on, and a table step equals
eight bit-serial steps with the polynomial 0x97 (40_crc8 R125). -/
def Obligations.Crc8LoadsThenStepsByteByByte : Prop :=
  (∀ s : State, crc8OperandsWritten s = true → s.host.crcRun = [] → ∃ t, exec .crc8 s = .next t ∧ t.crc.rem = s.host.crcInit) ∧
  (∀ (s : State) (bs : List Byte) (b : Byte), crc8OperandsWritten s = true → s.host.crcRun = bs ++ [b] →
    ∃ t u, exec .crc8 { s with host.crcRun := bs } = .next t ∧ exec .crc8 s = .next u ∧
      u.crc.rem = crcTab (t.crc.rem ^^^ b)) ∧
  (∀ r b : Byte, crcTab (r ^^^ b) = crcConstructed (r ^^^ b))

/-- CRC8 equals the bit-serial CRC with the polynomial 0x97, and writes `CRC_REM` and `CRC_OUT` and nothing else
(40_crc8 R121, R125, R126; the construction is from general knowledge, log 19). -/
def Obligations.Crc8EqualsTheBitSerialCrc : Prop :=
  ∀ s : State, crc8OperandsWritten s = true → exec .crc8 s = .next
    { s with
      crc := { rem := Ref.serialCrc s.host.crcRun s.host.crcInit,
               out := Ref.serialCrc s.host.crcRun s.host.crcInit, outWritten := true } }

/-- Zero residue: a run followed by its own CRC has CRC 0, and a packet is valid exactly when the CRC8 of its ten bytes
is 0 (40_crc8 R129). -/
def Obligations.ZeroResidueCharacterisesValidPackets : Prop :=
  (∀ (m : List Byte) (init : Byte), crc8 (m ++ [crc8 m init]) init = 0#8) ∧
  (∀ q : Packet, packetValid q = true ↔ crc8 ((List.range 10).map (byteAt q)) Config.crcInit = 0#8)

/-- Linearity: the CRC of the XOR of two runs of equal length is the XOR of their CRCs (40_crc8 R130). -/
def Obligations.CrcIsLinear : Prop :=
  ∀ (as bs : List Byte) (i j : Byte), as.length = bs.length →
    crc8 (List.zipWith (· ^^^ ·) as bs) (i ^^^ j) = crc8 as i ^^^ crc8 bs j

/-- `CRC_TAB` is a permutation: different indexes have different entries (40_crc8 R122). -/
def Obligations.CrcTableIsInjective : Prop := ∀ a b : Byte, crcTab a = crcTab b → a = b

/-! ### ENCODE -/

/-- ENCODE: header from the low four bits of the format and of the id, every field of the layout truncated to its
width, every other payload bit 0, the CRC of bytes 0 to 8 in byte 9, `TX_ERR` 0; the frame: nothing else changes but
the engine's working remainder and the model's record that `P` is written, which the statement leaves open
(41_codec R140). -/
def Obligations.EncodePacksTheLayout : Prop :=
  ∀ s : State, s.tx.txBusy = false → encodeOperandsWritten s = true → ∃ (p : Packet) (written : BitVec 10) (r : Byte),
    exec .encode s = .next { s with tx.p := p, tx.written.p := written, tx.txErr := 0#3, crc.rem := r } ∧
    fmtOf p = s.tx.fmtIn.setWidth 4 ∧ idOf p = s.tx.idIn.setWidth 4 ∧ storedCrc p = packetCrc p ∧
    (∀ l, layout (s.tx.fmtIn.setWidth 4) = some l →
      (∀ m d, l[m]? = some d → field p d.first d.width = (slot s.tx.fIn m).setWidth d.width) ∧
      (∀ k, 8 ≤ k → k < 72 → (∀ d ∈ l, k < d.first ∨ d.first + d.width ≤ k) → pbit p k = false)) ∧
    (layout (s.tx.fmtIn.setWidth 4) = none → field p 8 64 = 0#64)

/-- ENCODE builds exactly the word of the opcode table's pattern: format 0, format 1 (positions by the spec's decision
D12), or, for an unregistered format, header, zeros and CRC (decision D15); `CRC_REM` holds the CRC (log 13), and `P` is
recorded as written (log 3) (30_encoding R98, R99; 41_codec R143). -/
def Obligations.EncodeBuildsThePatternWord : Prop :=
  ∀ s : State, s.tx.txBusy = false → encodeOperandsWritten s = true →
    exec .encode s = .next
      (let crc := packetCrc (Ref.patternWord s.tx.fmtIn s.tx.idIn s.tx.fIn 0#8)
       { s with
         tx.p := Ref.patternWord s.tx.fmtIn s.tx.idIn s.tx.fIn crc, tx.written.p := BitVec.allOnes 10,
         tx.txErr := 0#3, crc.rem := crc })

/-! ### DECODE and the packet rows -/

/-- DECODE, by its three ways out: checksum first, then the layout, then the fields of the layout in slot order; the
frame: nothing else changes but `CRC_REM` (log 13) and the list of error reports (log 12) (41_codec R148). -/
def Obligations.DecodeTestsChecksumThenFormatThenExtracts : Prop :=
  (∀ s : State, decodeOperandsWritten s = true → packetCrc s.rx.q ≠ storedCrc s.rx.q →
    exec .decode s = .next (Ref.afterChecksumError s)) ∧
  (∀ s : State, decodeOperandsWritten s = true → packetCrc s.rx.q = storedCrc s.rx.q → layout (fmtOf s.rx.q) = none →
    exec .decode s = .next (Ref.afterUnknownFormat s)) ∧
  (∀ (s : State) (l : List FieldDesc), decodeOperandsWritten s = true → packetCrc s.rx.q = storedCrc s.rx.q →
    layout (fmtOf s.rx.q) = some l →
    ∃ f : FieldRegs,
      exec .decode s = .next
        { s with
          rx.rxErr := 0#3, rx.outValid := true, rx.fmtOut := fmtOf s.rx.q, rx.idOut := idOf s.rx.q,
          rx.nFieldsOut := BitVec.ofNat 3 l.length, rx.fOut := f, crc.rem := packetCrc s.rx.q } ∧
      (∀ m d, l[m]? = some d →
        slot f m = if d.signed then (field s.rx.q d.first d.width).signExtend 32
                   else (field s.rx.q d.first d.width).setWidth 32) ∧
      (∀ m, l.length ≤ m → m < 6 → slot f m = slot s.rx.fOut m))

/-- DECODE reports the first test that fails: a checksum that does not match is ChecksumError whatever the format, a
format without a layout is UnknownFormatError only once the checksum matched; and with both tests passed DECODE always
succeeds (41_codec R149, R151, R153). That a failure leaves `OUT_VALID` 0 and the bits of every result register as they
were is the spec's decision D19 (R154) and log 23. -/
def Obligations.DecodeReportsTheFirstFailedTest : Prop :=
  ∀ s : State, decodeOperandsWritten s = true → ∃ t, exec .decode s = .next t ∧
    (packetCrc s.rx.q ≠ storedCrc s.rx.q → t.rx.rxErr = 1#3) ∧
    (packetCrc s.rx.q = storedCrc s.rx.q → layout (fmtOf s.rx.q) = none → t.rx.rxErr = 3#3) ∧
    (packetCrc s.rx.q = storedCrc s.rx.q → layout (fmtOf s.rx.q) ≠ none → t.rx.rxErr = 0#3 ∧ t.rx.outValid = true) ∧
    (t.rx.rxErr ≠ 0#3 → t.rx.outValid = false ∧ t.rx.fmtOut = s.rx.fmtOut ∧ t.rx.idOut = s.rx.idOut ∧
      t.rx.nFieldsOut = s.rx.nFieldsOut ∧ t.rx.fOut = s.rx.fOut)

/-- Neither ENCODE nor DECODE reads or writes the sequence memory, the line, or the other half's registers, and neither
adds an event to the trace: with other contents of them the operation does the same and leaves those contents
(41_codec R163). -/
def Obligations.CodecReadsAndWritesNothingElse : Prop :=
  (∀ (s : State) (m : SeqMem) (b : Bool) (rx : RxHalf), s.tx.txBusy = false → encodeOperandsWritten s = true →
    ∃ t, exec .encode s = .next t ∧ t.tx.seq = s.tx.seq ∧ t.tx.line = s.tx.line ∧ t.rx = s.rx ∧ t.out = s.out ∧
      exec .encode { s with tx.seq := m, tx.line := b, rx := rx } =
        .next { t with tx.seq := m, tx.line := b, rx := rx }) ∧
  (∀ (s : State) (tx : TxHalf), decodeOperandsWritten s = true →
    ∃ t, exec .decode s = .next t ∧ t.tx = s.tx ∧ t.out.trace = s.out.trace ∧
      exec .decode { s with tx := tx } = .next { t with tx := tx })

/-- A packet row of the opcode table means what DECODE does with that packet in `Q`: the patterns of the table and the
layout registry agree (30_encoding R98, R99, R103; 41_codec R148; the row as an instruction is the model's, log 7). -/
def Obligations.PacketRowsAreDecodes : Prop :=
  ∀ (i : Instr) (p : Packet) (s : State), i.wf = true → encode i = .packet p →
    exec i s = exec .decode (Ref.withQ p s)

/-- PKT_FMT0 with a matching CRC delivers its two fields, the temperature sign-extended, whatever the reserved bits
hold (30_encoding R98, R104; 41_codec R152; log 7). -/
def Obligations.PktFmt0Delivers : Prop :=
  ∀ (id : BitVec 4) (t : BitVec 12) (r : BitVec 44) (v c : Byte) (s : State),
    packetCrc (pktFmt0Bits id t r v c) = c →
    exec (.pktFmt0 id t r v c) s =
      .next (Ref.afterFmt0 id (t.signExtend 32) (v.setWidth 32) (Ref.withQ (pktFmt0Bits id t r v c) s))

/-- PKT_FMT1 with a matching CRC delivers its six fields, the temperatures sign-extended, the rest unsigned; the
positions are the spec's decision D12, the signedness D13 (30_encoding R99; 41_codec R152; log 7, log 21). -/
def Obligations.PktFmt1Delivers : Prop :=
  ∀ (id : BitVec 4) (t1 t2 : BitVec 12) (s1 s2 : Byte) (p : BitVec 16) (v c : Byte) (s : State),
    packetCrc (pktFmt1Bits id t1 t2 s1 s2 p v c) = c →
    exec (.pktFmt1 id t1 t2 s1 s2 p v c) s =
      .next (Ref.afterFmt1 id ⟨t1.signExtend 32, t2.signExtend 32, s1.setWidth 32, s2.setWidth 32, p.setWidth 32,
        v.setWidth 32⟩ (Ref.withQ (pktFmt1Bits id t1 t2 s1 s2 p v c) s))

/-- The three reserved packet rows with a matching CRC raise UnknownFormatError with their selector, and no result
register is written (30_encoding R103, 41_codec R151; log 7). -/
def Obligations.ReservedPacketsRaise : Prop :=
  ∀ (fmt id : BitVec 4) (payload : BitVec 64) (c : Byte) (s : State),
    packetCrc (pktReservedBits fmt id payload c) = c →
    (fmtInRange 2 3 fmt = true → exec (.pktReserved2to3 fmt id payload c) s =
      .next (Ref.afterUnknownFormat (Ref.withQ (pktReservedBits fmt id payload c) s))) ∧
    (fmtInRange 4 7 fmt = true → exec (.pktReserved4to7 fmt id payload c) s =
      .next (Ref.afterUnknownFormat (Ref.withQ (pktReservedBits fmt id payload c) s))) ∧
    (fmtInRange 8 15 fmt = true → exec (.pktReserved8to15 fmt id payload c) s =
      .next (Ref.afterUnknownFormat (Ref.withQ (pktReservedBits fmt id payload c) s)))

/-- A packet row whose CRC does not match raises ChecksumError and writes no result register, whatever its format:
"A packet with a wrong CRC byte and an unregistered `fmt` reports ChecksumError" (41_codec R153; log 7). -/
def Obligations.PacketRowsWithBadCrcRaiseChecksum : Prop :=
  ∀ (i : Instr) (p : Packet) (s : State), i.wf = true → encode i = .packet p → packetCrc p ≠ storedCrc p →
    exec i s = .next (Ref.afterChecksumError (Ref.withQ p s))

/-- The round-trip law for format 0 (41_codec R157): within the declared ranges ENCODE, `P` copied to `Q`, and DECODE
give back the id and the two fields. -/
def Obligations.RoundTripFormat0 : Prop :=
  ∀ s : State, s.tx.txBusy = false → encodeOperandsWritten s = true → s.tx.fmtIn = 0#32 → s.tx.idIn.toNat < 16 →
    -2048 ≤ s.tx.fIn.f0.toInt → s.tx.fIn.f0.toInt ≤ 2047 → s.tx.fIn.f1.toNat < 256 →
    ∃ t u, exec .encode s = .next t ∧ exec .decode (Ref.withQ t.tx.p t) = .next u ∧
      u.rx.outValid = true ∧ u.rx.rxErr = 0#3 ∧ u.rx.fmtOut = 0#4 ∧ u.rx.idOut.toNat = s.tx.idIn.toNat ∧
      u.rx.nFieldsOut = 2#3 ∧ u.rx.fOut.f0 = s.tx.fIn.f0 ∧ u.rx.fOut.f1 = s.tx.fIn.f1

/-- The round-trip law for format 1 (41_codec R157); where the fields lie is the spec's decision D12. -/
def Obligations.RoundTripFormat1 : Prop :=
  ∀ s : State, s.tx.txBusy = false → encodeOperandsWritten s = true → s.tx.fmtIn = 1#32 → s.tx.idIn.toNat < 16 →
    -2048 ≤ s.tx.fIn.f0.toInt → s.tx.fIn.f0.toInt ≤ 2047 →
    -2048 ≤ s.tx.fIn.f1.toInt → s.tx.fIn.f1.toInt ≤ 2047 →
    s.tx.fIn.f2.toNat < 256 → s.tx.fIn.f3.toNat < 256 → s.tx.fIn.f4.toNat < 65536 → s.tx.fIn.f5.toNat < 256 →
    ∃ t u, exec .encode s = .next t ∧ exec .decode (Ref.withQ t.tx.p t) = .next u ∧
      u.rx.outValid = true ∧ u.rx.rxErr = 0#3 ∧ u.rx.fmtOut = 1#4 ∧ u.rx.idOut.toNat = s.tx.idIn.toNat ∧
      u.rx.nFieldsOut = 6#3 ∧ u.rx.fOut = s.tx.fIn

/-- "flipping any single bit within bytes 0-8 of a valid packet makes `decode` return `ChecksumError`", and a flipped
bit of byte 9 does too (40_crc8 R131, 60_exceptions R232). -/
def Obligations.EverySingleBitFlipIsDetected : Prop :=
  ∀ (s : State) (q : Packet) (k : Nat), decodeOperandsWritten s = true → packetValid q = true → k < 80 →
    s.rx.q = setPbit q k (!pbit q k) →
    exec .decode s = .next (Ref.afterChecksumError s)

/-- Every flip of two different bits within bytes 0 to 8 of a valid packet is detected (40_crc8 R131). -/
def Obligations.EveryDoubleBitFlipIsDetected : Prop :=
  ∀ (s : State) (q : Packet) (j k : Nat), decodeOperandsWritten s = true → packetValid q = true → j < k → k < 72 →
    s.rx.q = setPbit (setPbit q j (!pbit q j)) k (!pbit q k) →
    exec .decode s = .next (Ref.afterChecksumError s)

/-! ### COMPILE -/

/-- COMPILE of `n` copies: where `84n + 2` entries fit, `84n + 1` symbols, four SYNC and one symbol per packet bit per
copy, IM_GAP, NONE, entries above keeping what they held, and nothing else changed but `TX_ERR`, `SEQ_LEN` and
`SEQ_VALID`; where they do not fit, SequenceOverflowError, `SEQ_VALID` 0 and no entry and no length written
(30_encoding R106; 42_compiler R166, R169). -/
def Obligations.CompileWritesTheBurst : Prop :=
  (∀ (s : State) (n : Nat), s.tx.txBusy = false → compileOperandsWritten s = true → s.tx.repeatsIn.toNat = n →
    84 * n + 2 ≤ 338 → ∃ m : SeqMem,
    exec .compile s = .next { s with
      tx.seq := m, tx.seqLen := BitVec.ofNat 9 (84 * n + 1), tx.seqValid := true, tx.txErr := 0#3 } ∧
    (∀ c j, c < n → j < 4 → readSeq m (84 * c + j) = some 0#3) ∧
    (∀ c k, c < n → k < 80 → readSeq m (84 * c + 4 + k) = some (if pbit s.tx.p k then 3#3 else 2#3)) ∧
    readSeq m (84 * n) = some 4#3 ∧ readSeq m (84 * n + 1) = some 7#3 ∧
    (∀ i, 84 * n + 1 < i → readSeq m i = readSeq s.tx.seq i)) ∧
  (∀ (s : State) (n : Nat), s.tx.txBusy = false → compileOperandsWritten s = true → s.tx.repeatsIn.toNat = n →
    338 < 84 * n + 2 → ∃ t, exec .compile s = .next t ∧ t.tx.txErr = 4#3 ∧ t.tx.seqValid = false ∧
      t.tx.seq = s.tx.seq ∧ t.tx.seqLen = s.tx.seqLen)

/-- More than four copies do not fit: SequenceOverflowError, `SEQ_VALID` cleared, no entry and no length written
(42_compiler R167; the spec's decision D20; the report list is log 12). -/
def Obligations.CompileRejectsOverflow : Prop :=
  ∀ (s : State) (n : Nat), s.tx.txBusy = false → compileOperandsWritten s = true → s.tx.repeatsIn.toNat = n → 5 ≤ n →
    exec .compile s = .next { s with
      tx.txErr := 4#3, tx.seqValid := false, out.reports := s.out.reports ++ [.sequenceOverflow (84 * n + 2) 338] }

/-! ### PLAY and the symbols -/

/-- PLAY on a valid sequence that keeps the sentinel rule starts: `TX_ERR` 0, `SEQ_PC` 0, and `TX_BUSY` 1 unless the
sequence is empty; no event yet, the line as it was (43_sequencer R184; that the launch is a step of its own is the
model's, log 8). -/
def Obligations.PlayStartsTheSequencer : Prop :=
  ∀ s : State, s.tx.txBusy = false → s.tx.seqValid = true → Ref.sentinelRule s →
    exec .play s = .next { s with tx.txErr := 0#3, tx.seqPc := 0#9, tx.phase := .between, tx.timer := 0#16,
                                  tx.txBusy := decide (0 < s.tx.seqLen.toNat) }

/-- PLAY is refused while no valid sequence stands, and on a hand-written one that breaks the sentinel rule: a length above
`CAP - 1` = 337, no NONE at index `SEQ_LEN`, or an entry below it that was never written (43_sequencer R199, R202;
93_implementation_defined U4; the spec's decisions D22, D24). -/
def Obligations.PlayNeedsASoundSequence : Prop :=
  ∀ s : State, s.tx.txBusy = false →
    (s.tx.seqValid = false → exec .play s = .refused .sequenceNotValid) ∧
    (s.tx.seqValid = true →
      (337 < s.tx.seqLen.toNat ∨ readSeq s.tx.seq s.tx.seqLen.toNat ≠ some 7#3 ∨
        ∃ i < s.tx.seqLen.toNat, readSeq s.tx.seq i = none) →
      exec .play s = .refused .sequenceBroken)

/-- What happens outside the host's contract. ENCODE, COMPILE and PLAY are refused while a PLAY runs, in every state
(70_reset_and_hazards R271; the spec's decision D29). ENCODE, COMPILE, DECODE, CRC8 and MATCH that would read an operand
nothing has written since reset are turned away: they read and write nothing, and the run is marked "for the whole run";
with their operands written they complete and mark nothing (60_exceptions R248; 42_compiler R173; 70_reset_and_hazards
R264, R266; the spec's decision D28). That the machine can go on after a launch it turned away, and the records and the
mark it uses, are the model's (log 3); the step inside the contract does not go on. -/
def Obligations.LaunchesOutsideTheContractHaveNoEffect : Prop :=
  (∀ s : State, s.tx.txBusy = true →
    exec .encode s = .refused .txBusy ∧ exec .compile s = .refused .txBusy ∧ exec .play s = .refused .txBusy) ∧
  (∀ (s : State) (c : OpCode), Ref.readsUnwritten c s → (c = 2#3 ∨ c = 4#3 → s.tx.txBusy = false) →
    exec (decodeWord (.operation c)) s = .next (Ref.turnedAway s)) ∧
  (∀ (s : State) (c : OpCode), c = 1#3 ∨ c = 2#3 ∨ c = 3#3 ∨ c = 4#3 ∨ c = 6#3 → ¬ Ref.readsUnwritten c s →
    (c = 2#3 ∨ c = 4#3 → s.tx.txBusy = false) →
    ∃ t, exec (decodeWord (.operation c)) s = .next t ∧ t.out.runMarked = s.out.runMarked) ∧
  (∀ s t : State, step s = .next t → s.out.runMarked = true → t.out.runMarked = true) ∧
  (∀ (s : State) (c : OpCode) (rest : List HostAction), s.host.queue = .operation c :: rest → Ref.readsUnwritten c s →
    contractStep s = none) ∧
  (∀ s t : State, contractStep s = some t ↔ step s = .next t ∧ t.out.runMarked = false)

/-- The four Omni symbols with durations, from their codes to the wire: SYNC 600/600, ZERO 400/200, ONE 200/400, IM_GAP
1250 low with its high phase skipped; each leaves the line low and raises nothing (43_sequencer R187, R189, R190,
R191). -/
def Obligations.SymbolsDriveTheLine : Prop :=
  (decodeWord (.symbol 0b000#3) = .sync ∧ decodeWord (.symbol 0b010#3) = .zero ∧
    decodeWord (.symbol 0b011#3) = .one ∧ decodeWord (.symbol 0b100#3) = .imGap) ∧
  (∀ s : State, ∃ t, exec .sync s = .next t ∧ t.tx.line = false ∧ t.tx.txErr = s.tx.txErr ∧
    t.out.trace = s.out.trace ++ [.line true, .delay 600, .line false, .delay 600]) ∧
  (∀ s : State, ∃ t, exec .zero s = .next t ∧ t.tx.line = false ∧ t.tx.txErr = s.tx.txErr ∧
    t.out.trace = s.out.trace ++ [.line true, .delay 400, .line false, .delay 200]) ∧
  (∀ s : State, ∃ t, exec .one s = .next t ∧ t.tx.line = false ∧ t.tx.txErr = s.tx.txErr ∧
    t.out.trace = s.out.trace ++ [.line true, .delay 200, .line false, .delay 400]) ∧
  (∀ s : State, ∃ t, exec .imGap s = .next t ∧ t.tx.line = false ∧ t.tx.txErr = s.tx.txErr ∧
    t.out.trace = s.out.trace ++ [.line false, .delay 1250])

/-- A played symbol moves `SEQ_PC` on by one, ends PLAY when that was the last entry (log 8), and changes nothing else but
the line and the trace: the frame of SYNC, SYNC_GAP, ZERO, ONE and IM_GAP; SYNC_GAP plays its two open durations,
whatever `Config.syncGapHigh` and `Config.syncGapLow` are (43_sequencer R184, R188, R194; the spec's decision D10;
log 1). -/
def Obligations.PlayedSymbolsLeaveTheRest : Prop :=
  ∀ s : State,
    exec .sync s = .next (Ref.afterSymbol ⟨600#16, 600#16⟩ s) ∧
    exec .syncGap s = .next (Ref.afterSymbol ⟨Config.syncGapHigh, Config.syncGapLow⟩ s) ∧
    exec .zero s = .next (Ref.afterSymbol ⟨400#16, 200#16⟩ s) ∧
    exec .one s = .next (Ref.afterSymbol ⟨200#16, 400#16⟩ s) ∧
    exec .imGap s = .next (Ref.afterSymbol ⟨0#16, 1250#16⟩ s)

/-- The sentinel fetched before the declared length: nothing is driven and nothing waited for, `Abort(SEQ_PC)` is recorded,
`TX_ERR` 5, `TX_BUSY` 0, `SEQ_PC` keeps the index of the sentinel. At index `SEQ_LEN` it is never fetched: the step that
plays the last symbol ends PLAY there, with that symbol's events and no abort, `TX_ERR` as it was (the end test in that
step is log 8); and in a state with `SEQ_PC = SEQ_LEN` and `TX_BUSY` 1, which no run reaches, a step only ends PLAY
(43_sequencer R193). -/
def Obligations.PrematureSentinelEndsPlay : Prop :=
  decodeWord (.symbol 0b111#3) = .noneSym ∧
  (∀ s : State, ∃ t, exec .noneSym s = .next t ∧ t.tx.line = s.tx.line ∧ t.tx.txErr = 5#3 ∧ t.tx.txBusy = false ∧
    t.tx.seqPc = s.tx.seqPc ∧ t.out.trace = s.out.trace ++ [.abort s.tx.seqPc.toNat]) ∧
  (∀ (s : State) (timed : SymbolTiming), Safety.Inv s → s.host.queue = [] → s.tx.txBusy = true →
    s.tx.phase = .between → s.tx.seqPc.toNat + 1 = s.tx.seqLen.toNat →
    (readSeq s.tx.seq s.tx.seqPc.toNat).bind timing = some timed →
    ∃ t, step s = .next t ∧ t.tx.txBusy = false ∧ t.tx.seqPc = s.tx.seqLen ∧ t.tx.txErr = s.tx.txErr ∧
      t.out.trace = s.out.trace ++ Ref.symbolEvents timed ∧ t.out.reports = s.out.reports) ∧
  (∀ s : State, s.host.queue = [] → s.tx.txBusy = true → s.tx.phase = .between → s.tx.seqPc = s.tx.seqLen →
    step s = .next { s with tx.txBusy := false })

/-- The premature sentinel and, exactly as it, the reserved symbol codes 5 and 6 (the spec's decision D23): the abort and
its one report (log 12), with all else as it was (43_sequencer R192, R193). -/
def Obligations.AbortingSymbolsLeaveTheRest : Prop :=
  ∀ s : State, exec .noneSym s = .next (Ref.afterAbort s) ∧ exec .symReserved5 s = .next (Ref.afterAbort s) ∧
    exec .symReserved6 s = .next (Ref.afterAbort s)

/-- A PLAY of a sequence whose entries below `SEQ_LEN` are all played symbols: presented to an idle block, it runs
`1 + SEQ_LEN` steps, executes the entries 0 to `SEQ_LEN - 1` once each in that order, and ends with `TX_BUSY` 0,
`TX_ERR` 0 and `SEQ_PC = SEQ_LEN` (43_sequencer R197, R198; one step per symbol is the model's, log 8). -/
def Obligations.PlayExecutesEverySymbolInOrder : Prop :=
  ∀ s : State, s.host.queue = [.operation 5#3] → s.tx.txBusy = false → s.tx.seqValid = true →
    Ref.sentinelRule s → (∀ i < s.tx.seqLen.toNat, Ref.playable s.tx.seq i) →
    ∃ t, core.run (1 + s.tx.seqLen.toNat) s = .next t ∧
      t.out.trace = s.out.trace ++ Ref.sequenceEvents s.tx.seq s.tx.seqLen.toNat ∧
      t.tx.txBusy = false ∧ t.tx.txErr = 0#3 ∧ t.tx.seqPc = s.tx.seqLen ∧ t.tx.seq = s.tx.seq ∧
      t.tx.seqLen = s.tx.seqLen ∧ t.tx.seqValid = true ∧ t.tx.p = s.tx.p ∧ t.rx = s.rx ∧ t.crc = s.crc ∧
      t.out.reports = s.out.reports

/-- A PLAY that meets its first entry without a timing at index `i` below `SEQ_LEN`: it executes exactly the entries 0
to `i - 1`, then aborts there with PlaybackSequencingError (43_sequencer R193, R197; 60_exceptions R239; log 8, log 12). -/
def Obligations.PlayAbortsAtTheFirstBadEntry : Prop :=
  ∀ (s : State) (i : Nat), s.host.queue = [.operation 5#3] → s.tx.txBusy = false → s.tx.seqValid = true →
    Ref.sentinelRule s → i < s.tx.seqLen.toNat → (∀ j < i, Ref.playable s.tx.seq j) →
    ¬ Ref.playable s.tx.seq i →
    ∃ t, core.run (1 + i + 1) s = .next t ∧
      t.out.trace = s.out.trace ++ Ref.sequenceEvents s.tx.seq i ++ [.abort i] ∧
      t.tx.txBusy = false ∧ t.tx.txErr = 5#3 ∧ t.tx.seqPc.toNat = i ∧ t.tx.seq = s.tx.seq ∧
      t.out.reports = s.out.reports ++ [.playbackSequencing i]

/-- A compiled burst plays to its end, never aborts, lasts `52800 n + 1250` microseconds and leaves the line low, for
every packet and every `n <= 4` (43_sequencer R201, 70_reset_and_hazards R280, 60_exceptions R237). -/
def Obligations.CompiledBurstPlaysFullLength : Prop :=
  ∀ (s : State) (n : Nat), s.host.queue = [.operation 4#3, .operation 5#3] → s.tx.txBusy = false →
    compileOperandsWritten s = true → s.tx.repeatsIn.toNat = n → n ≤ 4 →
    ∃ t w, core.run (2 + (84 * n + 1)) s = .next t ∧ t.out.trace = s.out.trace ++ w ∧
      duration w = 52800 * n + 1250 ∧ t.tx.txBusy = false ∧ t.tx.txErr = 0#3 ∧ t.tx.line = false ∧
      t.out.reports = s.out.reports

/-- A symbol played microsecond by microsecond ends in the very state of the symbol played as one effect: the sequencer
with `TIMER` counting down is the sequencer without a clock (43_sequencer R182; log 9). Of the operations: the symbol
entered and its microseconds elapsed are the symbol played. Of steps: with as many ticks pending as the symbol lasts (one,
if it lasts no time), the run ends after the whole symbol, whatever is pending then; with fewer ticks and then a pass, or
then nothing, the step after the ticks finishes the symbol; a tick at an entry without a timing aborts PLAY as the
whole-symbol step does (R192, R193). -/
def Obligations.MicrosecondTicksEqualTheWholeSymbol : Prop :=
  (∀ (s : State) (c : SymCode) (t : SymbolTiming), readSeq s.tx.seq s.tx.seqPc.toNat = some c → timing c = some t →
    elapseN (t.high.toNat + t.low.toNat) (enterSymbol t s) = playSymbol t s) ∧
  (∀ (s : State) (t : SymbolTiming), Safety.Inv s → s.tx.txBusy = true → s.tx.phase = .between →
    (readSeq s.tx.seq s.tx.seqPc.toNat).bind timing = some t →
    (∀ rest, s.host.queue = List.replicate (max 1 (t.high.toNat + t.low.toNat)) .tick ++ rest →
      core.run (max 1 (t.high.toNat + t.low.toNat)) s = .next (Ref.afterSymbol t { s with host.queue := rest })) ∧
    (∀ k rest, 0 < k → k < t.high.toNat + t.low.toNat → s.host.queue = List.replicate k .tick ++ .pass :: rest →
      core.run (k + 1) s = .next (Ref.afterSymbol t { s with host.queue := rest })) ∧
    (∀ k, 0 < k → k < t.high.toNat + t.low.toNat → s.host.queue = List.replicate k .tick →
      core.run (k + 1) s = .next (Ref.afterSymbol t { s with host.queue := [] }))) ∧
  (∀ (s : State) (rest : List HostAction), Safety.Inv s → s.tx.txBusy = true → s.tx.phase = .between →
    (readSeq s.tx.seq s.tx.seqPc.toNat).bind timing = none → s.host.queue = .tick :: rest →
    step s = .next (Ref.afterAbort { s with host.queue := rest }))

/-- No operation but a played symbol ever changes the line (43_sequencer R200); the reset event is no instruction. -/
def Obligations.OnlySymbolsWriteTheLine : Prop :=
  ∀ (i : Instr) (s t : State), exec i s = .next t → t.tx.line ≠ s.tx.line →
    i = .sync ∨ i = .syncGap ∨ i = .zero ∨ i = .one ∨ i = .imGap

/-- Outside a PLAY nothing writes the line and it keeps its level: no step of an idle block changes it, but for the reset
event, which drives it low (43_sequencer R200; 70_reset_and_hazards R260). -/
def Obligations.LineKeepsItsLevelOutsidePlay : Prop :=
  ∀ s t : State, s.tx.txBusy = false → (∀ rest, s.host.queue ≠ .reset :: rest) → step s = .next t →
    t.tx.line = s.tx.line ∧ t.out.trace = s.out.trace

/-! ### MATCH -/

/-- No eligible row occurs twice: RowNotFoundError, `M_STATE` Failed, `OUT_VALID` 0, and nothing else is written, `Q`
among it; the report is the model's list (44_matcher R210; the spec's decision D26; log 12). -/
def Obligations.MatchWithoutARepeatRaisesRowNotFound : Prop :=
  ∀ s : State, matchOperandsWritten s = true → (∀ n r, ¬ Ref.repeatedAt s.host.capture n r) →
    exec .matchRows s = .next { s with
      rx.rxErr := 2#3, rx.outValid := false, rx.mState := 5#3, out.reports := s.out.reports ++ [.rowNotFound] }

/-- MATCH takes the first repeated eligible row, packs its first 80 bits into `Q`, and goes on as DECODE would on that
packet, with `M_STATE` Decoded or Failed; that only this row is tried is the spec's decision D26 (44_matcher R206, R209,
R211, R212, R216; log 22). -/
def Obligations.MatchTakesTheFirstRepeatedRow : Prop :=
  ∀ (s : State) (n : Nat) (r : Row), matchOperandsWritten s = true → Ref.repeatedAt s.host.capture n r →
    (∀ n' r', n' < n → ¬ Ref.repeatedAt s.host.capture n' r') →
    ∃ (q : Packet) (t : State), (∀ k < 80, some (pbit q k) = r[k]?) ∧
      exec .decode (Ref.withQ q s) = .next t ∧
      exec .matchRows s = .next { t with
        rx.matchRow := n, rx.matchLen := r.length, rx.matchWritten := true,
        rx.mState := if t.rx.outValid then 4#3 else 5#3 }

/-- What MATCH reports is a function of the capture snapshot alone: two states with the same capture end with the same
error, the same `M_STATE` and `OUT_VALID`, the same `Q` when a row was found, and the same results when a packet was
decoded (44_matcher R218). -/
def Obligations.MatchDependsOnTheCaptureAlone : Prop :=
  ∀ s s' : State, matchOperandsWritten s = true → matchOperandsWritten s' = true → s.host.capture = s'.host.capture →
    ∃ t t', exec .matchRows s = .next t ∧ exec .matchRows s' = .next t' ∧
      t.rx.rxErr = t'.rx.rxErr ∧ t.rx.mState = t'.rx.mState ∧ t.rx.outValid = t'.rx.outValid ∧
      (t.rx.rxErr ≠ 2#3 → t.rx.q = t'.rx.q ∧ t.rx.matchRow = t'.rx.matchRow ∧ t.rx.matchLen = t'.rx.matchLen) ∧
      readFmtOut t = readFmtOut t' ∧ readIdOut t = readIdOut t' ∧ readNFieldsOut t = readNFieldsOut t' ∧
      (∀ m, readFOut t m = readFOut t' m)

/-- A DECODE after a MATCH that decoded changes nothing: the results of MATCH are those of DECODE for the same `Q`
(44_matcher R215, 41_codec R155). -/
def Obligations.DecodeAfterMatchChangesNothing : Prop :=
  ∀ s t : State, matchOperandsWritten s = true → exec .matchRows s = .next t → t.rx.outValid = true → exec .decode t = .next t

/-- MATCH of a capture the host has supplied completes. On any failure `OUT_VALID = 0`, no result register is written, `M_STATE = Failed`, and
`RX_ERR` names the reason: 2 exactly when no eligible row occurs twice, 1 exactly when one does and the packed packet's
checksum does not match, 3 exactly when it matches and no layout is registered; a MATCH that does not fail ends in
Decoded (44_matcher R216, R217). Which rows are eligible and equal is the spec's decision D26 (log 22); that the result
registers keep their bits is D19 (log 23). -/
def Obligations.FailedMatchWritesNoResult : Prop :=
  ∀ s : State, matchOperandsWritten s = true → ∃ t, exec .matchRows s = .next t ∧
    (t.rx.rxErr ≠ 0#3 → t.rx.outValid = false ∧ t.rx.mState = 5#3 ∧
      t.rx.fmtOut = s.rx.fmtOut ∧ t.rx.idOut = s.rx.idOut ∧ t.rx.fOut = s.rx.fOut ∧
      t.rx.nFieldsOut = s.rx.nFieldsOut) ∧
    (t.rx.rxErr = 2#3 ↔ ∀ n r, ¬ Ref.repeatedAt s.host.capture n r) ∧
    (t.rx.rxErr = 1#3 ↔ (∃ n r, Ref.repeatedAt s.host.capture n r) ∧ packetCrc t.rx.q ≠ storedCrc t.rx.q) ∧
    (t.rx.rxErr = 3#3 ↔ (∃ n r, Ref.repeatedAt s.host.capture n r) ∧ packetCrc t.rx.q = storedCrc t.rx.q ∧
      layout (fmtOf t.rx.q) = none) ∧
    (t.rx.rxErr = 0#3 ↔ (∃ n r, Ref.repeatedAt s.host.capture n r) ∧ packetCrc t.rx.q = storedCrc t.rx.q ∧
      layout (fmtOf t.rx.q) ≠ none) ∧
    (t.rx.rxErr = 0#3 → t.rx.outValid = true ∧ t.rx.mState = 4#3) ∧
    (∀ n r, Ref.repeatedAt s.host.capture n r → (∀ n' r', n' < n → ¬ Ref.repeatedAt s.host.capture n' r') →
      ∀ k < 80, some (pbit t.rx.q k) = r[k]?)

/-! ### Errors, halves, the host -/

/-- OP_NONE starts nothing and changes nothing (30_encoding R110; the code is the spec's decision D5). -/
def Obligations.NoOperationChangesNothing : Prop := ∀ s : State, exec .opNone s = .next s

/-- OP_RESERVED is refused in every state (30_encoding R110; the spec's decision D5). -/
def Obligations.ReservedOperationIsRefused : Prop := ∀ s : State, exec .opReserved s = .refused .reservedOperation

/-- An operation's first act is to clear its half's error register: its outcome does not depend on the code an earlier
one left there, while CRC8 clears neither (60_exceptions R243; the spec's decision D30). A launch that is turned away does
not begin and clears nothing (70_reset_and_hazards R266; log 3). -/
def Obligations.OperationsClearTheirErrorRegister : Prop :=
  ∀ (s : State) (e : BitVec 3),
    (encodeOperandsWritten s = true → exec .encode { s with tx.txErr := e } = exec .encode s) ∧
    (compileOperandsWritten s = true → exec .compile { s with tx.txErr := e } = exec .compile s) ∧
    exec .play { s with tx.txErr := e } = exec .play s ∧
    (decodeOperandsWritten s = true → exec .decode { s with rx.rxErr := e } = exec .decode s) ∧
    (matchOperandsWritten s = true → exec .matchRows { s with rx.rxErr := e } = exec .matchRows s) ∧
    ∃ t, exec .crc8 s = .next t ∧ t.tx.txErr = s.tx.txErr ∧ t.rx.rxErr = s.rx.rxErr

/-- One instruction raises at most one error; the error's register is its half's, it holds the error's code, and the other
half is not touched; the list of reports is the model's (60_exceptions R231, R236, R242; log 12). -/
def Obligations.AtMostOneErrorPerInstruction : Prop :=
  ∀ (i : Instr) (s t : State), exec i s = .next t →
    t.out.reports = s.out.reports ∨
      ∃ e : ErrorInfo, t.out.reports = s.out.reports ++ [e] ∧
        (errorOfTx e = true → t.tx.txErr = errorCode e ∧ t.tx.txBusy = false ∧ t.rx = s.rx) ∧
        (errorOfTx e = false → t.rx.rxErr = errorCode e ∧ t.rx.outValid = false ∧ t.tx = s.tx)

/-- The two halves share no mutable state: no operation, symbol or packet changes both (10_state R25, 60_exceptions
R242). -/
def Obligations.NoInstructionChangesBothHalves : Prop :=
  ∀ (i : Instr) (s t : State), exec i s = .next t → t.tx = s.tx ∨ t.rx = s.rx

/-- Each host write writes its own register, with its mark, and nothing else: the operand registers, `P`, `SEQ`, `SEQ_LEN`
and `SEQ_VALID` while the transmit half is idle, each refused while PLAY runs; `Q`, the byte run and `init` of CRC8, and a
capture within the buffer's capacity at any time (10_state R28, R29, R30, R43, R47; 70_reset_and_hazards R271, R273; the
spec's decision D29). The pending actions are log 4, the marks log 3, `SEQ_LEN` and `SEQ_VALID` as writes of their own
log 25, the refusal of a larger capture log 16. -/
def Obligations.HostWritesWriteTheirRegister : Prop :=
  (∀ (s : State) (rest : List HostAction), s.tx.txBusy = false →
    let u := { s with host.queue := rest }
    (∀ v, s.host.queue = .writeFmtIn v :: rest → step s = .next { u with tx.fmtIn := v, tx.written.fmtIn := true }) ∧
    (∀ v, s.host.queue = .writeIdIn v :: rest → step s = .next { u with tx.idIn := v, tx.written.idIn := true }) ∧
    (∀ v, s.host.queue = .writeRepeatsIn v :: rest →
      step s = .next { u with tx.repeatsIn := v, tx.written.repeatsIn := true }) ∧
    (∀ i v, s.host.queue = .writeFIn i v :: rest → ∃ f h,
      step s = .next { u with tx.fIn := f, tx.written.fIn := h } ∧
      (∀ m < 6, slot f m = if m = i.val then v else slot s.tx.fIn m) ∧
      (∀ m < 6, h.getLsbD m = (decide (m = i.val) || s.tx.written.fIn.getLsbD m))) ∧
    (∀ i b, s.host.queue = .writeP i b :: rest → ∃ p h,
      step s = .next { u with tx.p := p, tx.written.p := h } ∧
      (∀ m < 10, byteAt p m = if m = i.val then b else byteAt s.tx.p m) ∧
      (∀ m < 10, h.getLsbD m = (decide (m = i.val) || s.tx.written.p.getLsbD m))) ∧
    (∀ i c, s.host.queue = .writeSeq i c :: rest → ∃ q,
      step s = .next { u with tx.seq := q } ∧
      (∀ m, readSeq q m = if m = i.val then some c else readSeq s.tx.seq m)) ∧
    (∀ v, s.host.queue = .writeSeqLen v :: rest → step s = .next { u with tx.seqLen := v }) ∧
    (∀ b, s.host.queue = .writeSeqValid b :: rest → step s = .next { u with tx.seqValid := b })) ∧
  (∀ (s : State) (rest : List HostAction),
    let u := { s with host.queue := rest }
    (∀ i b, s.host.queue = .writeQ i b :: rest → ∃ q h,
      step s = .next { u with rx.q := q, rx.qWritten := h } ∧
      (∀ m < 10, byteAt q m = if m = i.val then b else byteAt s.rx.q m) ∧
      (∀ m < 10, h.getLsbD m = (decide (m = i.val) || s.rx.qWritten.getLsbD m))) ∧
    (∀ bytes init, s.host.queue = .presentRun bytes init :: rest →
      step s = .next { u with host.crcRun := bytes, host.crcInit := init, host.runWritten := true }) ∧
    (∀ rows, s.host.queue = .presentCapture rows :: rest →
      (captureFits rows = true → step s = .next { u with host.capture := rows, host.captureWritten := true }) ∧
      (captureFits rows = false → step s = .refused .captureTooLarge))) ∧
  (∀ (s : State) (a : HostAction) (rest : List HostAction), s.host.queue = a :: rest → s.tx.txBusy = true →
    ((∃ v, a = .writeFmtIn v) ∨ (∃ v, a = .writeIdIn v) ∨ (∃ i v, a = .writeFIn i v) ∨ (∃ v, a = .writeRepeatsIn v) ∨
      (∃ i b, a = .writeP i b) ∨ (∃ i c, a = .writeSeq i c) ∨ (∃ v, a = .writeSeqLen v) ∨
      (∃ b, a = .writeSeqValid b)) →
    step s = .refused .txBusy)

/-- While PLAY runs, the receive half and CRC8 still work on the operands supplied, and in every case leave the transmit
half and the trace alone (70_reset_and_hazards R264, R270). -/
def Obligations.ReceiveHalfWorksDuringPlay : Prop :=
  ∀ (s : State) (i : Instr), s.tx.txBusy = true → (i = .decode ∨ i = .matchRows ∨ i = .crc8) →
    ∃ t, exec i s = .next t ∧ t.tx = s.tx ∧ t.out.trace = s.out.trace ∧
      (operandsWritten i s = true → exec i { s with tx.txBusy := false } = .next { t with tx.txBusy := false } ∧
        t.out.runMarked = s.out.runMarked)

/-- A waveform lasts as long as its trace: merging neighbours of equal level loses no microsecond
(43_sequencer R183). -/
def Obligations.WaveformKeepsTheDuration : Prop :=
  ∀ (b : Bool) (es : List Event), ((waveform b es).map Prod.snd).sum = duration es
end

