-- ==== Sys2Proof/Laws/Encoding.lean ====
section
/-!
SUPPORT. Laws/Encoding.lean: packet words and their slices as numbers, so that slicing a written word is arithmetic
(30_encoding R91, R98, R99).
-/

namespace Sys2Proof

/-- A concatenation as a number. -/
theorem toNat_append_mul {n m : Nat} (x : BitVec n) (y : BitVec m) :
    (x ++ y).toNat = x.toNat * 2 ^ m + y.toNat := by
  rw [BitVec.toNat_append, ← Nat.shiftLeft_add_eq_or_of_lt y.isLt, Nat.shiftLeft_eq]

/-- A slice of a packet as a number (00_scope R15). -/
theorem packetSlice_toNat (p : Packet) (s w : Nat) :
    (packetSlice p s w).toNat = p.toNat / 2 ^ (80 - s - w) % 2 ^ w := by
  simp [packetSlice, BitVec.extractLsb'_toNat, Nat.shiftRight_eq_div_pow]

/-- The word of a format 0 packet as a number (30_encoding R98). -/
theorem pktFmt0Bits_toNat (id : BitVec 4) (t : BitVec 12) (r : BitVec 44) (v c : Byte) :
    (pktFmt0Bits id t r v c).toNat =
      (((id.toNat * 2 ^ 12 + t.toNat) * 2 ^ 44 + r.toNat) * 2 ^ 8 + v.toNat) * 2 ^ 8 + c.toNat := by
  have e : (pktFmt0Bits id t r v c).toNat = (0#4 ++ id ++ t ++ r ++ v ++ c).toNat := rfl
  simp only [e, toNat_append_mul]
  simp

/-- The word of a format 1 packet as a number (30_encoding R99). -/
theorem pktFmt1Bits_toNat (id : BitVec 4) (t1 t2 : BitVec 12) (s1 s2 : Byte) (p : BitVec 16) (v c : Byte) :
    (pktFmt1Bits id t1 t2 s1 s2 p v c).toNat =
      (((((((2 ^ 4 + id.toNat) * 2 ^ 12 + t1.toNat) * 2 ^ 12 + t2.toNat) * 2 ^ 8 + s1.toNat) * 2 ^ 8 + s2.toNat) *
        2 ^ 16 + p.toNat) * 2 ^ 8 + v.toNat) * 2 ^ 8 + c.toNat := by
  have e : (pktFmt1Bits id t1 t2 s1 s2 p v c).toNat =
      (1#4 ++ id ++ t1 ++ t2 ++ s1 ++ s2 ++ p ++ v ++ c).toNat := rfl
  simp only [e, toNat_append_mul]
  simp

/-- The word of a packet of a reserved format as a number (30_encoding R91, R103). -/
theorem pktReservedBits_toNat (fmt id : BitVec 4) (payload : BitVec 64) (c : Byte) :
    (pktReservedBits fmt id payload c).toNat =
      ((fmt.toNat * 2 ^ 4 + id.toNat) * 2 ^ 64 + payload.toNat) * 2 ^ 8 + c.toNat := by
  have e : (pktReservedBits fmt id payload c).toNat = (fmt ++ id ++ payload ++ c).toNat := rfl
  simp only [e, toNat_append_mul]

/-- The selector of a format 0 word is 0. -/
theorem packetSlice_pktFmt0Bits (id : BitVec 4) (t : BitVec 12) (r : BitVec 44) (v c : Byte) :
    packetSlice (pktFmt0Bits id t r v c) 0 4 = 0#4 := by
  apply BitVec.eq_of_toNat_eq
  rw [packetSlice_toNat, pktFmt0Bits_toNat]
  have := id.isLt; have := t.isLt; have := r.isLt; have := v.isLt; have := c.isLt
  simp only [BitVec.toNat_ofNat]
  omega

/-- The selector of a format 1 word is 1. -/
theorem packetSlice_pktFmt1Bits (id : BitVec 4) (t1 t2 : BitVec 12) (s1 s2 : Byte) (p : BitVec 16) (v c : Byte) :
    packetSlice (pktFmt1Bits id t1 t2 s1 s2 p v c) 0 4 = 1#4 := by
  apply BitVec.eq_of_toNat_eq
  rw [packetSlice_toNat, pktFmt1Bits_toNat]
  have := id.isLt; have := t1.isLt; have := t2.isLt; have := s1.isLt; have := s2.isLt; have := p.isLt
  have := v.isLt; have := c.isLt
  simp only [BitVec.toNat_ofNat]
  omega

/-- The selector of a reserved word is its own. -/
theorem packetSlice_pktReservedBits (fmt id : BitVec 4) (payload : BitVec 64) (c : Byte) :
    packetSlice (pktReservedBits fmt id payload c) 0 4 = fmt := by
  apply BitVec.eq_of_toNat_eq
  rw [packetSlice_toNat, pktReservedBits_toNat]
  have := fmt.isLt; have := id.isLt; have := payload.isLt; have := c.isLt
  omega

end Sys2Proof
end

