-- ==== Sys2Proof/Laws/Packet.lean ====
section
/-!
SUPPORT. Laws/Packet.lean: the views of a packet agree (20_memory R67): what each packet operation does, said bit by
bit, and the field, byte and slot laws that follow.
-/

namespace Sys2Proof.Machine

/-- Two packets with the same 80 packet bits are the same packet. -/
theorem packet_ext {p q : Packet} (h : ∀ k < 80, pbit p k = pbit q k) : p = q := by
  apply BitVec.eq_of_getMsbD_eq
  intro i hi
  exact h i hi

/-- Field bit `w-1-j` is packet bit `s+j` (00_scope R15). -/
theorem field_getLsbD (p : Packet) (s w j : Nat) (h : s + w ≤ 80) (hj : j < w) :
    (field p s w).getLsbD j = pbit p (s + (w - 1 - j)) := by
  have h1 : 80 - s - w + j = 79 - (s + (w - 1 - j)) := by omega
  have h2 : s + (w - 1 - j) < 80 := by omega
  simp [field, packetSlice, pbit, BitVec.getMsbD_eq_getLsbD, hj, h1, h2]

/-- `SetPbit` writes its bit and no other (00_scope R14). -/
theorem pbit_setPbit (p : Packet) (i k : Nat) (v : Bool) (hi : i < 80) (hk : k < 80) :
    pbit (setPbit p i v) k = if k = i then v else pbit p k := by
  unfold setPbit pbit
  cases v <;>
    simp only [Bool.false_eq_true, if_false, if_true, BitVec.getMsbD_and, BitVec.getMsbD_or, BitVec.getMsbD_not,
      BitVec.getMsbD_shiftLeft] <;>
    · simp only [BitVec.getMsbD_eq_getLsbD, BitVec.getLsbD_one, hk, decide_true, Bool.true_and]
      split <;> rename_i h <;> simp [*] <;> omega

/-- `PackField` writes packet bits `s` to `s+w-1` with the low `w` bits of the value, the most significant first, and
no other bit (41_codec R136). -/
theorem pbit_packField (p : Packet) (s w k : Nat) (v : Word) (h : s + w ≤ 80) (hw : w ≤ 32) (hk : k < 80) :
    pbit (packField p s w v) k =
      if s ≤ k ∧ k < s + w then v.getLsbD (w - 1 - (k - s)) else pbit p k := by
  unfold packField pbit
  simp only [BitVec.getMsbD_eq_getLsbD, BitVec.getLsbD_or, BitVec.getLsbD_and, BitVec.getLsbD_not,
    BitVec.getLsbD_shiftLeft, BitVec.getLsbD_setWidth, BitVec.getLsbD_allOnes, hk, decide_true, Bool.true_and]
  by_cases h1 : k < s + w
  · have e1 : ¬ (79 - k < 80 - s - w) := by omega
    by_cases h2 : s ≤ k
    · have e2 : 79 - k - (80 - s - w) = w - 1 - (k - s) := by omega
      have e3 : w - 1 - (k - s) < w := by omega
      have e4 : 79 - k < 80 := by omega
      have e5 : w - 1 - (k - s) < 80 := by omega
      have e6 : w - 1 - (k - s) < 32 := by omega
      simp [h1, h2, e1, e2, e3, e4, e5]
    · have e2 : ¬ (79 - k - (80 - s - w) < w) := by omega
      simp [h1, h2, e1, e2]
      omega
  · have e1 : 79 - k < 80 - s - w := by omega
    simp [h1, e1]
    omega

/-- A field just packed reads back as the value truncated to its width (41_codec R136, R137). -/
theorem field_packField (p : Packet) (s w : Nat) (v : Word) (h : s + w ≤ 80) (hw : w ≤ 32) :
    field (packField p s w v) s w = v.setWidth w := by
  apply BitVec.eq_of_getLsbD_eq
  intro j hj
  rw [field_getLsbD _ s w j h hj, pbit_packField _ s w _ v h hw (by omega)]
  have e : w - 1 - (s + (w - 1 - j) - s) = j := by omega
  have e2 : s ≤ s + (w - 1 - j) ∧ s + (w - 1 - j) < s + w := by omega
  rw [if_pos e2, e]
  simp [hj]

/-- A field that shares no bit with the one packed is not changed by it (41_codec R136). -/
theorem field_packField_of_disjoint (p : Packet) (s w s' w' : Nat) (v : Word) (h : s + w ≤ 80) (hw : w ≤ 32)
    (h' : s' + w' ≤ 80) (hd : s' + w' ≤ s ∨ s + w ≤ s') :
    field (packField p s w v) s' w' = field p s' w' := by
  apply BitVec.eq_of_getLsbD_eq
  intro j hj
  rw [field_getLsbD _ s' w' j h' hj, field_getLsbD _ s' w' j h' hj, pbit_packField _ s w _ v h hw (by omega)]
  have e : ¬ (s ≤ s' + (w' - 1 - j) ∧ s' + (w' - 1 - j) < s + w) := by omega
  simp [e]

/-- A byte is the field of eight bits at its place (20_memory R67). -/
theorem byteAt_eq_field (p : Packet) (i : Nat) : byteAt p i = field p (8 * i) 8 := rfl

/-- A byte just written reads back. -/
theorem byteAt_setByte (p : Packet) (i : Nat) (b : Byte) (h : i < 10) : byteAt (setByte p i b) i = b := by
  have e := field_packField p (8 * i) 8 (b.setWidth 32) (by omega) (by omega)
  rw [byteAt_eq_field, setByte, e, BitVec.setWidth_setWidth_of_le b (by omega)]
  simp

/-- Writing a byte leaves the other nine. -/
theorem byteAt_setByte_of_ne (p : Packet) (i j : Nat) (b : Byte) (hi : i < 10) (hj : j < 10) (hne : i ≠ j) :
    byteAt (setByte p i b) j = byteAt p j :=
  field_packField_of_disjoint p (8 * i) 8 (8 * j) 8 _ (by omega) (by omega) (by omega) (by omega)

/-- Writing byte `i` leaves every field that shares no bit with it. -/
theorem field_setByte_of_disjoint (p : Packet) (i s w : Nat) (b : Byte) (hi : i < 10) (h : s + w ≤ 80)
    (hd : s + w ≤ 8 * i ∨ 8 * i + 8 ≤ s) : field (setByte p i b) s w = field p s w :=
  field_packField_of_disjoint p (8 * i) 8 s w _ (by omega) (by omega) h (by omega)

/-- A packet is its fields, where they cover all 80 bits (00_scope R15). -/
theorem packet_ext_fields {p q : Packet} (l : List (Nat × Nat))
    (hall : ∀ k < 80, ∃ e ∈ l, e.1 ≤ k ∧ k < e.1 + e.2) (hb : ∀ e ∈ l, e.1 + e.2 ≤ 80)
    (h : ∀ e ∈ l, field p e.1 e.2 = field q e.1 e.2) : p = q := by
  apply packet_ext
  intro k hk
  obtain ⟨⟨s, w⟩, he, h1, h2⟩ := hall k hk
  have hf := h _ he
  have hs := hb _ he
  simp only at h1 h2 hf hs
  have e1 := field_getLsbD p s w (w - 1 - (k - s)) hs (by omega)
  have e2 := field_getLsbD q s w (w - 1 - (k - s)) hs (by omega)
  have e3 : s + (w - 1 - (w - 1 - (k - s))) = k := by omega
  rw [hf, e2, e3] at e1
  exact e1.symm

/-- The fields of a packet of zeros. -/
theorem field_zero (s w : Nat) : field 0#80 s w = 0#w := by
  simp [field, packetSlice]

/-- The fields of a format 0 word (30_encoding R98). -/
theorem field_pktFmt0Bits (id : BitVec 4) (t : BitVec 12) (r : BitVec 44) (v c : Byte) :
    field (pktFmt0Bits id t r v c) 0 4 = 0#4 ∧ field (pktFmt0Bits id t r v c) 4 4 = id ∧
    field (pktFmt0Bits id t r v c) 8 12 = t ∧ field (pktFmt0Bits id t r v c) 20 44 = r ∧
    field (pktFmt0Bits id t r v c) 64 8 = v ∧ field (pktFmt0Bits id t r v c) 72 8 = c := by
  have := id.isLt; have := t.isLt; have := r.isLt; have := v.isLt; have := c.isLt
  refine ⟨?_, ?_, ?_, ?_, ?_, ?_⟩ <;>
    · apply BitVec.eq_of_toNat_eq
      rw [field, packetSlice_toNat, pktFmt0Bits_toNat]
      try simp only [BitVec.toNat_ofNat]
      omega

/-- The fields of a format 1 word (30_encoding R99). -/
theorem field_pktFmt1Bits (id : BitVec 4) (t1 t2 : BitVec 12) (s1 s2 : Byte) (p : BitVec 16) (v c : Byte) :
    field (pktFmt1Bits id t1 t2 s1 s2 p v c) 0 4 = 1#4 ∧ field (pktFmt1Bits id t1 t2 s1 s2 p v c) 4 4 = id ∧
    field (pktFmt1Bits id t1 t2 s1 s2 p v c) 8 12 = t1 ∧ field (pktFmt1Bits id t1 t2 s1 s2 p v c) 20 12 = t2 ∧
    field (pktFmt1Bits id t1 t2 s1 s2 p v c) 32 8 = s1 ∧ field (pktFmt1Bits id t1 t2 s1 s2 p v c) 40 8 = s2 ∧
    field (pktFmt1Bits id t1 t2 s1 s2 p v c) 48 16 = p ∧ field (pktFmt1Bits id t1 t2 s1 s2 p v c) 64 8 = v ∧
    field (pktFmt1Bits id t1 t2 s1 s2 p v c) 72 8 = c := by
  have := id.isLt; have := t1.isLt; have := t2.isLt; have := s1.isLt; have := s2.isLt; have := p.isLt
  have := v.isLt; have := c.isLt
  refine ⟨?_, ?_, ?_, ?_, ?_, ?_, ?_, ?_, ?_⟩ <;>
    · apply BitVec.eq_of_toNat_eq
      rw [field, packetSlice_toNat, pktFmt1Bits_toNat]
      try simp only [BitVec.toNat_ofNat]
      omega

/-- The fields of a word of a reserved format (30_encoding R91, R103). -/
theorem field_pktReservedBits (fmt id : BitVec 4) (payload : BitVec 64) (c : Byte) :
    field (pktReservedBits fmt id payload c) 0 4 = fmt ∧ field (pktReservedBits fmt id payload c) 4 4 = id ∧
    field (pktReservedBits fmt id payload c) 8 64 = payload ∧ field (pktReservedBits fmt id payload c) 72 8 = c := by
  have := id.isLt; have := fmt.isLt; have := payload.isLt; have := c.isLt
  refine ⟨?_, ?_, ?_, ?_⟩ <;>
    · apply BitVec.eq_of_toNat_eq
      rw [field, packetSlice_toNat, pktReservedBits_toNat]
      omega

/-- The CRC of bytes 0 to 8 does not depend on byte 9 (40_crc8 R127). -/
theorem crcRunOf_setByte_nine (p : Packet) (b : Byte) : crcRunOf (setByte p 9 b) = crcRunOf p := by
  unfold crcRunOf
  apply List.map_congr_left
  intro j hj
  have hj' : j < 9 := by simpa using hj
  exact byteAt_setByte_of_ne p 9 j b (by omega) (by omega) (by omega)

/-- Packing a row writes its bits to consecutive packet bits and no other (44_matcher R212). -/
theorem pbit_packBits (bs : Row) (n k : Nat) (q : Packet) (h : n + bs.length ≤ 80) (hk : k < 80) :
    pbit (packBits bs n q) k = if n ≤ k ∧ k < n + bs.length then bs.getD (k - n) false else pbit q k := by
  induction bs generalizing n q with
  | nil =>
    have e : ¬ (n ≤ k ∧ k < n + ([] : Row).length) := by simp
    rw [if_neg e]
    rfl
  | cons b bs ih =>
    simp only [List.length_cons] at h ⊢
    rw [packBits, ih (n + 1) _ (by omega), pbit_setPbit _ _ _ _ (by omega) hk]
    by_cases h1 : k = n
    · subst h1
      simp
    · by_cases h2 : n + 1 ≤ k ∧ k < n + 1 + bs.length
      · have e : n ≤ k ∧ k < n + (bs.length + 1) := by omega
        have e2 : k - n = (k - (n + 1)) + 1 := by omega
        simp [h2, e, e2]
      · have e : ¬ (n ≤ k ∧ k < n + (bs.length + 1)) := by omega
        rw [if_neg h2, if_neg e, if_neg h1]

/-- A written slot reads back; the other slots stay (10_state R28, R31). -/
theorem slot_setSlot (f : FieldRegs) (m n : Nat) (v : Word) (hm : m < 6) (hn : n < 6) :
    slot (setSlot f m v) n = if n = m then v else slot f n := by
  have hm' : m = 0 ∨ m = 1 ∨ m = 2 ∨ m = 3 ∨ m = 4 ∨ m = 5 := by omega
  have hn' : n = 0 ∨ n = 1 ∨ n = 2 ∨ n = 3 ∨ n = 4 ∨ n = 5 := by omega
  rcases hm' with rfl | rfl | rfl | rfl | rfl | rfl <;>
    rcases hn' with rfl | rfl | rfl | rfl | rfl | rfl <;> rfl

/-- Writing values to the slots from `n` on writes those and no other (41_codec R152). -/
theorem slot_putSlots (vs : List Word) (n m : Nat) (f : FieldRegs) (h : n + vs.length ≤ 6) (hm : m < 6) :
    slot (putSlots vs n f) m = if n ≤ m ∧ m < n + vs.length then vs.getD (m - n) 0#32 else slot f m := by
  induction vs generalizing n f with
  | nil =>
    have e : ¬ (n ≤ m ∧ m < n + ([] : List Word).length) := by simp
    rw [if_neg e]
    rfl
  | cons v vs ih =>
    simp only [List.length_cons] at h ⊢
    rw [putSlots, ih (n + 1) _ (by omega), slot_setSlot _ _ _ _ (by omega) hm]
    by_cases h1 : m = n
    · subst h1
      simp
    · by_cases h2 : n + 1 ≤ m ∧ m < n + 1 + vs.length
      · have e : n ≤ m ∧ m < n + (vs.length + 1) := by omega
        have e2 : m - n = (m - (n + 1)) + 1 := by omega
        simp [h2, e, e2]
      · have e : ¬ (n ≤ m ∧ m < n + (vs.length + 1)) := by omega
        rw [if_neg h2, if_neg e, if_neg h1]

end Sys2Proof.Machine
end

