-- ==== Sys2Proof/Laws/Capture.lean ====
section
/-!
SUPPORT. Laws/Capture.lean: what the row search of MATCH can answer, and what it packs (44_matcher R206 to R209, R212).
-/

namespace Sys2Proof.Machine

/-- A row takes part in the search when its bit count is from 80 to 82 (44_matcher R207). -/
theorem eligible_iff (r : Row) : eligible r = true ↔ 80 ≤ r.length ∧ r.length ≤ 82 := by
  unfold eligible
  rw [Bool.and_eq_true, decide_eq_true_eq, decide_eq_true_eq]
  rfl

/-- A capture fits when it has no more rows, and no row more bits, than the buffer holds (10_state R44, R47). -/
theorem captureFits_iff (rows : List Row) :
    captureFits rows = true ↔ rows.length ≤ Config.nrowsMax ∧ ∀ r ∈ rows, r.length ≤ Config.rowBitsMax := by
  unfold captureFits
  rw [Bool.and_eq_true, decide_eq_true_eq, List.all_eq_true]
  simp only [decide_eq_true_eq]

/-- The empty capture fits, whatever the capacity. -/
theorem captureFits_nil : captureFits [] = true :=
  (captureFits_iff []).mpr ⟨Nat.zero_le _, by simp⟩

/-- A row of 80 to 82 bits fits, whatever the capacity: `ROW_BITS_MAX >= 82` (10_state R47). -/
theorem length_le_rowBitsMax (r : Row) (h : eligible r = true) : r.length ≤ Config.rowBitsMax :=
  Nat.le_trans ((eligible_iff r).mp h).2 (Nat.le_add_right 82 _)

/-- A row is repeated when it is eligible and at least two eligible rows are equal to it (44_matcher R209). -/
theorem repeated_iff (rows : List Row) (r : Row) :
    repeated rows r = true ↔ eligible r = true ∧ 2 ≤ occurrences rows r := by
  unfold repeated
  rw [Bool.and_eq_true, decide_eq_true_eq]
  rfl

/-- At least two entries of a list satisfy a test exactly when two different places do. -/
theorem two_le_countP {α : Type} (l : List α) (p : α → Bool) :
    2 ≤ l.countP p ↔
      ∃ (i j : Nat) (x y : α), i < j ∧ l[i]? = some x ∧ l[j]? = some y ∧ p x = true ∧ p y = true := by
  induction l with
  | nil => simp
  | cons a l ih =>
    rw [List.countP_cons]
    by_cases hp : p a = true
    · rw [if_pos hp]
      constructor
      · intro h
        obtain ⟨x, hx, hpx⟩ := List.countP_pos_iff.mp (show 0 < l.countP p by omega)
        obtain ⟨j, hj⟩ := List.mem_iff_getElem?.mp hx
        exact ⟨0, j + 1, a, x, by omega, by simp, by simpa using hj, hp, hpx⟩
      · rintro ⟨i, j, x, y, hij, hi, hj, hx, hy⟩
        cases j with
        | zero => omega
        | succ j =>
          have hm : y ∈ l := List.mem_iff_getElem?.mpr ⟨j, by simpa using hj⟩
          have := List.countP_pos_iff.mpr ⟨y, hm, hy⟩
          omega
    · rw [if_neg hp, Nat.add_zero, ih]
      constructor
      · rintro ⟨i, j, x, y, hij, hi, hj, hx, hy⟩
        exact ⟨i + 1, j + 1, x, y, by omega, by simpa using hi, by simpa using hj, hx, hy⟩
      · rintro ⟨i, j, x, y, hij, hi, hj, hx, hy⟩
        cases i with
        | zero =>
          simp only [List.getElem?_cons_zero, Option.some.injEq] at hi
          subst hi
          exact absurd hx hp
        | succ i =>
          cases j with
          | zero => omega
          | succ j => exact ⟨i, j, x, y, by omega, by simpa using hi, by simpa using hj, hx, hy⟩

/-- The search finds nothing only when no row from its start on is repeated (44_matcher R206, R210). -/
theorem searchFrom_none (rows rs : List Row) (n : Nat) (h : searchFrom rows rs n = none) (k : Nat) (r : Row)
    (hr : rs[k]? = some r) : repeated rows r = false := by
  induction rs generalizing n k with
  | nil => simp at hr
  | cons a rs ih =>
    unfold searchFrom at h
    split at h
    · cases h
    · rename_i ha
      cases k with
      | zero =>
        simp only [List.getElem?_cons_zero, Option.some.injEq] at hr
        subst hr
        simpa using ha
      | succ k => exact ih (n + 1) h k (by simpa using hr)

/-- What the search finds is a repeated row, at its index, with no repeated row before it (44_matcher R206, R209). -/
theorem searchFrom_some (rows rs : List Row) (n m : Nat) (r : Row) (h : searchFrom rows rs n = some (m, r)) :
    ∃ k, m = n + k ∧ rs[k]? = some r ∧ repeated rows r = true ∧
      ∀ (j : Nat) (q : Row), j < k → rs[j]? = some q → repeated rows q = false := by
  induction rs generalizing n with
  | nil => cases h
  | cons a rs ih =>
    unfold searchFrom at h
    split at h
    · rename_i ha
      cases h
      exact ⟨0, by omega, by simp, ha, by simp⟩
    · rename_i ha
      obtain ⟨k, h1, h2, h3, h4⟩ := ih (n + 1) h
      refine ⟨k + 1, by omega, by simpa using h2, h3, ?_⟩
      intro j q hj hq
      cases j with
      | zero =>
        simp only [List.getElem?_cons_zero, Option.some.injEq] at hq
        subst hq
        simpa using ha
      | succ j => exact h4 j q (by omega) (by simpa using hq)

/-- Step 2 packs the first 80 bits of the row (44_matcher R212). -/
theorem packRow_take (r : Row) (q : Packet) : packRow r q = packBits (r.take 80) 0 q := rfl

/-- All step 2 can do with an eligible row: packet bit `k` is row bit `k`, for every `k` from 0 to 79
(44_matcher R212). -/
theorem pbit_packRow (r : Row) (q : Packet) (k : Nat) (h : 80 ≤ r.length) (hk : k < 80) :
    some (pbit (packRow r q) k) = r[k]? := by
  have hl : (r.take 80).length = 80 := by simp; omega
  have e := pbit_packBits (r.take 80) 0 k q (by omega) hk
  rw [packRow_take, e]
  simp [hl, hk, show k < r.length by omega]

/-- Step 2 leaves nothing of the old `Q`: the packed packet is the same whatever stood there (44_matcher R212, R218). -/
theorem packRow_forgets (r : Row) (q q' : Packet) (h : 80 ≤ r.length) : packRow r q = packRow r q' :=
  packet_ext fun k hk => Option.some.inj ((pbit_packRow r q k h hk).trans (pbit_packRow r q' k h hk).symm)

end Sys2Proof.Machine
end

