-- ==== Sys2Proof/Laws/Config.lean ====
section
/-!
SUPPORT. Laws/Config.lean: the parameters of 00_scope R11 agree with one another and with the types that carry their
widths.
-/

namespace Sys2Proof.Config

/-- A packet is a header byte, the payload and a CRC byte (00_scope R11, 30_encoding R91). -/
theorem packetBytes_eq : packetBytes = 1 + payloadBytes + 1 := rfl

/-- Every bit of a packet is sent (00_scope R11). -/
theorem packetBits_eq : packetBits = 8 * packetBytes := rfl

/-- The capacity is what the default burst needs (00_scope R11). -/
theorem cap_eq : cap = defaultRepeats * (preambleCount + packetBits) + 2 := rfl

/-- `ROW_BITS_MAX >= 82` (10_state R47). -/
theorem maxBits_le_rowBitsMax : maxBits ≤ rowBitsMax := Nat.le_add_right _ _

theorem packet_width : Packet = BitVec packetBits := rfl
theorem word_width : Word = BitVec fieldInW := rfl
theorem dur_width : Dur = BitVec durW := rfl
theorem repeats_width : Repeats = BitVec repW := rfl

end Sys2Proof.Config
end

