-- ==== Sys2Proof/Laws/Contract.lean ====
section
/-! SUPPORT. Laws/Contract.lean: all the step inside the host's contract can do (70_reset_and_hazards R266). -/

namespace Sys2Proof.Safety

open Sys2Proof.Machine

/-- The step inside the contract is the machine's step where that answers a next state of an unmarked run
(70_reset_and_hazards R266). -/
theorem contractStep_of_next (s t : State) (h : step s = .next t) :
    contractStep s = if t.out.runMarked then none else some t := by
  cases hm : t.out.runMarked <;> simp [contractStep, runInsideContract, h, hm]

end Sys2Proof.Safety
end

