-- ==== Sys2Proof/Laws/Crc.lean ====
section
/-!
SUPPORT. Laws/Crc.lean: the CRC table against its construction (40_crc8 R121, R122) and the fold of the Checksum Engine.
-/

namespace Sys2Proof.Machine

/-- The listed table is the constructed one, all 256 entries (40_crc8 R121, R122). -/
theorem crcTab_eq_crcConstructed (i : Byte) : crcTab i = crcConstructed i := by
  have h : ∀ a < 16, ∀ b < 16, crcTab (BitVec.ofNat 8 (16 * a + b)) = crcConstructed (BitVec.ofNat 8 (16 * a + b)) := by
    decide
  have e := h (i.toNat / 16) (by omega) (i.toNat % 16) (by omega)
  rwa [Nat.div_add_mod, BitVec.ofNat_toNat, BitVec.setWidth_eq] at e

/-- A bit-serial step is linear over XOR (40_crc8 R121). -/
theorem crcShift_xor (a b : Byte) : crcShift (a ^^^ b) = crcShift a ^^^ crcShift b := by
  have e : a <<< 1 ^^^ Config.crcPoly ^^^ (b <<< 1 ^^^ Config.crcPoly) =
      a <<< 1 ^^^ b <<< 1 ^^^ (Config.crcPoly ^^^ Config.crcPoly) := by ac_rfl
  unfold crcShift
  rw [BitVec.getMsbD_xor, BitVec.shiftLeft_xor_distrib]
  cases a.getMsbD 0 <;> cases b.getMsbD 0 <;> simp [e]
  · rw [BitVec.xor_assoc]
  · ac_rfl

/-- The table is linear over XOR (40_crc8 R121, R130). -/
theorem crcTab_xor (a b : Byte) : crcTab (a ^^^ b) = crcTab a ^^^ crcTab b := by
  simp only [crcTab_eq_crcConstructed, crcConstructed, crcShift_xor]

/-- `CRC_TAB[0x00] = 0x00` (40_crc8 R122). -/
@[simp] theorem crcTab_zero : crcTab 0#8 = 0#8 := by decide

/-- The empty run gives `init` back (40_crc8 R126). -/
@[simp] theorem crc8_nil (init : Byte) : crc8 [] init = init := rfl

/-- One byte, one step (40_crc8 R125). -/
@[simp] theorem crc8_cons (b : Byte) (bs : List Byte) (init : Byte) : crc8 (b :: bs) init = crc8 bs (crcByte init b) :=
  rfl

/-- A run after a run (40_crc8 R126). -/
theorem crc8_append (as bs : List Byte) (init : Byte) : crc8 (as ++ bs) init = crc8 bs (crc8 as init) := by
  simp [crc8]

end Sys2Proof.Machine
end

