-- ==== Sys2Proof/Laws/Sequence.lean ====
section
/-!
SUPPORT. Laws/Sequence.lean: the laws of the sequence memory: a read after a write, the canonical form kept by every
write, and what a run of writes leaves (20_memory R88, 42_compiler R166).
-/

namespace Sys2Proof.Machine

/-- A read after a write to the same entry gives the code written; the other entries stay (20_memory R88). -/
theorem readSeq_writeSeq (m : SeqMem) (i j : Nat) (c : SymCode) :
    readSeq (writeSeq m i c) j = if j = i then some c else readSeq m j := by
  induction m with
  | nil =>
    by_cases h : j = i
    · simp [writeSeq, readSeq, h]
    · have h' : ¬ i = j := fun e => h e.symm
      simp [writeSeq, readSeq, h, h']
  | cons e m ih =>
    obtain ⟨a, d⟩ := e
    unfold writeSeq
    split
    · rename_i h
      by_cases hj : j = i
      · simp [readSeq, hj]
      · have h' : ¬ i = j := fun e => hj e.symm
        simp [readSeq, hj, h']
    · split
      · rename_i h h2
        subst h2
        by_cases hj : j = i
        · simp [readSeq, hj]
        · have h' : ¬ i = j := fun e => hj e.symm
          simp [readSeq, hj, h']
      · rename_i h h2
        by_cases hj : a = j
        · have h' : ¬ j = i := fun e => h2 (by omega)
          simp [readSeq, hj, h']
        · simp [readSeq, hj, ih]

/-- A write below `CAP`, at an index not below the bound, keeps the indexes rising. -/
theorem seqRising_writeSeq (m : SeqMem) (lo i : Nat) (c : SymCode) (h : seqRising lo m = true) (hlo : lo ≤ i)
    (hi : i < Config.cap) : seqRising lo (writeSeq m i c) = true := by
  induction m generalizing lo with
  | nil => simp [writeSeq, seqRising, hlo, hi]
  | cons e m ih =>
    obtain ⟨a, d⟩ := e
    simp only [seqRising, Bool.and_eq_true, decide_eq_true_eq] at h
    unfold writeSeq
    split
    · rename_i h1
      simp only [seqRising, Bool.and_eq_true, decide_eq_true_eq]
      exact ⟨⟨hlo, hi⟩, ⟨by omega, h.1.2⟩, h.2⟩
    · split
      · rename_i h1 h2
        subst h2
        simp only [seqRising, Bool.and_eq_true, decide_eq_true_eq]
        exact h
      · rename_i h1 h2
        simp only [seqRising, Bool.and_eq_true, decide_eq_true_eq]
        exact ⟨h.1, ih (a + 1) h.2 (by omega)⟩

/-- Every write below `CAP` keeps the canonical form. -/
theorem writeSeq_wf (m : SeqMem) (i : Nat) (c : SymCode) (h : SeqMem.wf m = true) (hi : i < Config.cap) :
    SeqMem.wf (writeSeq m i c) = true :=
  seqRising_writeSeq m 0 i c h (Nat.zero_le i) hi

/-- Every run of writes below `CAP` keeps the canonical form. -/
theorem writeSeqRun_wf (cs : List SymCode) (w : Nat) (m : SeqMem) (h : SeqMem.wf m = true)
    (hw : w + cs.length ≤ Config.cap) : SeqMem.wf (writeSeqRun cs w m) = true := by
  induction cs generalizing w m with
  | nil => exact h
  | cons c cs ih =>
    simp only [List.length_cons] at hw
    exact ih (w + 1) _ (writeSeq_wf m w c h (by omega)) (by omega)

/-- A run of writes from `w` on leaves its codes at consecutive entries and every other entry as it was
(42_compiler R166, R169). -/
theorem readSeq_writeSeqRun (cs : List SymCode) (w j : Nat) (m : SeqMem) :
    readSeq (writeSeqRun cs w m) j =
      if w ≤ j ∧ j < w + cs.length then cs[j - w]? else readSeq m j := by
  induction cs generalizing w m with
  | nil =>
    have e : ¬ (w ≤ j ∧ j < w + ([] : List SymCode).length) := by simp
    rw [if_neg e]
    rfl
  | cons c cs ih =>
    simp only [List.length_cons]
    rw [writeSeqRun, ih, readSeq_writeSeq]
    by_cases h1 : j = w
    · subst h1
      simp
    · by_cases h2 : w + 1 ≤ j ∧ j < w + 1 + cs.length
      · have e : w ≤ j ∧ j < w + (cs.length + 1) := by omega
        have e2 : j - w = (j - (w + 1)) + 1 := by omega
        rw [if_pos h2, if_pos e, e2, List.getElem?_cons_succ]
      · have e : ¬ (w ≤ j ∧ j < w + (cs.length + 1)) := by omega
        rw [if_neg h2, if_neg e, if_neg h1]

/-- `seqWritten` says that every entry below `n` holds a value. -/
theorem seqWritten_iff (m : SeqMem) (n : Nat) : seqWritten m n = true ↔ ∀ i < n, (readSeq m i).isSome = true := by
  induction n with
  | zero => simp [seqWritten]
  | succ n ih =>
    simp only [seqWritten, Bool.and_eq_true, ih]
    constructor
    · rintro ⟨h1, h2⟩ i hi
      rcases Nat.lt_succ_iff_lt_or_eq.mp hi with h | rfl
      · exact h2 i h
      · exact h1
    · intro h
      exact ⟨h n (Nat.lt_succ_self n), fun i hi => h i (Nat.lt_succ_of_lt hi)⟩

/-- The sequence memory after reset is in its canonical form. -/
theorem reset_seq_wf : SeqMem.wf State.reset.tx.seq = true := by decide

/-- One copy is 84 symbols (30_encoding R106). -/
theorem copySymbols_length (p : Packet) : (copySymbols p).length = 84 := by
  simp [copySymbols, Config.preambleCount, Config.packetBits]

/-- A burst of `n` copies is `84n + 2` entries (42_compiler R169). -/
theorem burst_length (p : Packet) (n : Nat) : (burst p n).length = burstEntries n := by
  simp [burst, burstEntries, burstLen, copySymbols_length, Config.preambleCount, Config.packetBits]
  omega

end Sys2Proof.Machine
end

