-- ==== Sys2Proof/Laws/State.lean ====
section
/-!
SUPPORT. Laws/State.lean: one lemma per field per named update of the state, so that no later proof unfolds a record
update.
-/

namespace Sys2Proof.Machine

@[simp] theorem setRem_tx (r : Byte) (s : State) : (setRem r s).tx = s.tx := rfl
@[simp] theorem setRem_rx (r : Byte) (s : State) : (setRem r s).rx = s.rx := rfl
@[simp] theorem setRem_crc_rem (r : Byte) (s : State) :
    (setRem r s).crc.rem = r := rfl
@[simp] theorem setRem_crc_out (r : Byte) (s : State) :
    (setRem r s).crc.out = s.crc.out := rfl
@[simp] theorem setRem_crc_outWritten (r : Byte) (s : State) :
    (setRem r s).crc.outWritten = s.crc.outWritten := rfl
@[simp] theorem setRem_host (r : Byte) (s : State) : (setRem r s).host = s.host := rfl
@[simp] theorem setRem_out (r : Byte) (s : State) : (setRem r s).out = s.out := rfl

@[simp] theorem turnAway_tx (s : State) : (turnAway s).tx = s.tx := rfl
@[simp] theorem turnAway_rx (s : State) : (turnAway s).rx = s.rx := rfl
@[simp] theorem turnAway_crc (s : State) : (turnAway s).crc = s.crc := rfl
@[simp] theorem turnAway_host (s : State) : (turnAway s).host = s.host := rfl
@[simp] theorem turnAway_out_trace (s : State) : (turnAway s).out.trace = s.out.trace := rfl
@[simp] theorem turnAway_out_reports (s : State) : (turnAway s).out.reports = s.out.reports := rfl
@[simp] theorem turnAway_out_runMarked (s : State) : (turnAway s).out.runMarked = true := rfl

@[simp] theorem beginTx_tx_fmtIn (s : State) :
    (beginTx s).tx.fmtIn = s.tx.fmtIn := rfl
@[simp] theorem beginTx_tx_idIn (s : State) :
    (beginTx s).tx.idIn = s.tx.idIn := rfl
@[simp] theorem beginTx_tx_fIn (s : State) :
    (beginTx s).tx.fIn = s.tx.fIn := rfl
@[simp] theorem beginTx_tx_repeatsIn (s : State) :
    (beginTx s).tx.repeatsIn = s.tx.repeatsIn := rfl
@[simp] theorem beginTx_tx_p (s : State) :
    (beginTx s).tx.p = s.tx.p := rfl
@[simp] theorem beginTx_tx_seq (s : State) :
    (beginTx s).tx.seq = s.tx.seq := rfl
@[simp] theorem beginTx_tx_seqLen (s : State) :
    (beginTx s).tx.seqLen = s.tx.seqLen := rfl
@[simp] theorem beginTx_tx_seqValid (s : State) :
    (beginTx s).tx.seqValid = s.tx.seqValid := rfl
@[simp] theorem beginTx_tx_seqPc (s : State) :
    (beginTx s).tx.seqPc = s.tx.seqPc := rfl
@[simp] theorem beginTx_tx_txBusy (s : State) :
    (beginTx s).tx.txBusy = s.tx.txBusy := rfl
@[simp] theorem beginTx_tx_txErr (s : State) :
    (beginTx s).tx.txErr = 0#3 := rfl
@[simp] theorem beginTx_tx_phase (s : State) :
    (beginTx s).tx.phase = s.tx.phase := rfl
@[simp] theorem beginTx_tx_timer (s : State) :
    (beginTx s).tx.timer = s.tx.timer := rfl
@[simp] theorem beginTx_tx_line (s : State) :
    (beginTx s).tx.line = s.tx.line := rfl
@[simp] theorem beginTx_tx_written (s : State) :
    (beginTx s).tx.written = s.tx.written := rfl
@[simp] theorem beginTx_rx (s : State) : (beginTx s).rx = s.rx := rfl
@[simp] theorem beginTx_crc (s : State) : (beginTx s).crc = s.crc := rfl
@[simp] theorem beginTx_host (s : State) : (beginTx s).host = s.host := rfl
@[simp] theorem beginTx_out (s : State) : (beginTx s).out = s.out := rfl

@[simp] theorem beginRx_tx (s : State) : (beginRx s).tx = s.tx := rfl
@[simp] theorem beginRx_rx_q (s : State) :
    (beginRx s).rx.q = s.rx.q := rfl
@[simp] theorem beginRx_rx_fmtOut (s : State) :
    (beginRx s).rx.fmtOut = s.rx.fmtOut := rfl
@[simp] theorem beginRx_rx_idOut (s : State) :
    (beginRx s).rx.idOut = s.rx.idOut := rfl
@[simp] theorem beginRx_rx_fOut (s : State) :
    (beginRx s).rx.fOut = s.rx.fOut := rfl
@[simp] theorem beginRx_rx_nFieldsOut (s : State) :
    (beginRx s).rx.nFieldsOut = s.rx.nFieldsOut := rfl
@[simp] theorem beginRx_rx_outValid (s : State) :
    (beginRx s).rx.outValid = false := rfl
@[simp] theorem beginRx_rx_matchRow (s : State) :
    (beginRx s).rx.matchRow = s.rx.matchRow := rfl
@[simp] theorem beginRx_rx_matchLen (s : State) :
    (beginRx s).rx.matchLen = s.rx.matchLen := rfl
@[simp] theorem beginRx_rx_rxErr (s : State) :
    (beginRx s).rx.rxErr = 0#3 := rfl
@[simp] theorem beginRx_rx_mState (s : State) :
    (beginRx s).rx.mState = s.rx.mState := rfl
@[simp] theorem beginRx_rx_qWritten (s : State) :
    (beginRx s).rx.qWritten = s.rx.qWritten := rfl
@[simp] theorem beginRx_rx_matchWritten (s : State) :
    (beginRx s).rx.matchWritten = s.rx.matchWritten := rfl
@[simp] theorem beginRx_crc (s : State) : (beginRx s).crc = s.crc := rfl
@[simp] theorem beginRx_host (s : State) : (beginRx s).host = s.host := rfl
@[simp] theorem beginRx_out (s : State) : (beginRx s).out = s.out := rfl

@[simp] theorem setMState_tx (v : BitVec 3) (s : State) : (setMState v s).tx = s.tx := rfl
@[simp] theorem setMState_rx_q (v : BitVec 3) (s : State) :
    (setMState v s).rx.q = s.rx.q := rfl
@[simp] theorem setMState_rx_fmtOut (v : BitVec 3) (s : State) :
    (setMState v s).rx.fmtOut = s.rx.fmtOut := rfl
@[simp] theorem setMState_rx_idOut (v : BitVec 3) (s : State) :
    (setMState v s).rx.idOut = s.rx.idOut := rfl
@[simp] theorem setMState_rx_fOut (v : BitVec 3) (s : State) :
    (setMState v s).rx.fOut = s.rx.fOut := rfl
@[simp] theorem setMState_rx_nFieldsOut (v : BitVec 3) (s : State) :
    (setMState v s).rx.nFieldsOut = s.rx.nFieldsOut := rfl
@[simp] theorem setMState_rx_outValid (v : BitVec 3) (s : State) :
    (setMState v s).rx.outValid = s.rx.outValid := rfl
@[simp] theorem setMState_rx_matchRow (v : BitVec 3) (s : State) :
    (setMState v s).rx.matchRow = s.rx.matchRow := rfl
@[simp] theorem setMState_rx_matchLen (v : BitVec 3) (s : State) :
    (setMState v s).rx.matchLen = s.rx.matchLen := rfl
@[simp] theorem setMState_rx_rxErr (v : BitVec 3) (s : State) :
    (setMState v s).rx.rxErr = s.rx.rxErr := rfl
@[simp] theorem setMState_rx_mState (v : BitVec 3) (s : State) :
    (setMState v s).rx.mState = v := rfl
@[simp] theorem setMState_rx_qWritten (v : BitVec 3) (s : State) :
    (setMState v s).rx.qWritten = s.rx.qWritten := rfl
@[simp] theorem setMState_rx_matchWritten (v : BitVec 3) (s : State) :
    (setMState v s).rx.matchWritten = s.rx.matchWritten := rfl
@[simp] theorem setMState_crc (v : BitVec 3) (s : State) : (setMState v s).crc = s.crc := rfl
@[simp] theorem setMState_host (v : BitVec 3) (s : State) : (setMState v s).host = s.host := rfl
@[simp] theorem setMState_out (v : BitVec 3) (s : State) : (setMState v s).out = s.out := rfl

@[simp] theorem writeQ_tx (q : Packet) (s : State) : (writeQ q s).tx = s.tx := rfl
@[simp] theorem writeQ_rx_q (q : Packet) (s : State) :
    (writeQ q s).rx.q = q := rfl
@[simp] theorem writeQ_rx_fmtOut (q : Packet) (s : State) :
    (writeQ q s).rx.fmtOut = s.rx.fmtOut := rfl
@[simp] theorem writeQ_rx_idOut (q : Packet) (s : State) :
    (writeQ q s).rx.idOut = s.rx.idOut := rfl
@[simp] theorem writeQ_rx_fOut (q : Packet) (s : State) :
    (writeQ q s).rx.fOut = s.rx.fOut := rfl
@[simp] theorem writeQ_rx_nFieldsOut (q : Packet) (s : State) :
    (writeQ q s).rx.nFieldsOut = s.rx.nFieldsOut := rfl
@[simp] theorem writeQ_rx_outValid (q : Packet) (s : State) :
    (writeQ q s).rx.outValid = s.rx.outValid := rfl
@[simp] theorem writeQ_rx_matchRow (q : Packet) (s : State) :
    (writeQ q s).rx.matchRow = s.rx.matchRow := rfl
@[simp] theorem writeQ_rx_matchLen (q : Packet) (s : State) :
    (writeQ q s).rx.matchLen = s.rx.matchLen := rfl
@[simp] theorem writeQ_rx_rxErr (q : Packet) (s : State) :
    (writeQ q s).rx.rxErr = s.rx.rxErr := rfl
@[simp] theorem writeQ_rx_mState (q : Packet) (s : State) :
    (writeQ q s).rx.mState = s.rx.mState := rfl
@[simp] theorem writeQ_rx_qWritten (q : Packet) (s : State) :
    (writeQ q s).rx.qWritten = BitVec.allOnes 10 := rfl
@[simp] theorem writeQ_rx_matchWritten (q : Packet) (s : State) :
    (writeQ q s).rx.matchWritten = s.rx.matchWritten := rfl
@[simp] theorem writeQ_crc (q : Packet) (s : State) : (writeQ q s).crc = s.crc := rfl
@[simp] theorem writeQ_host (q : Packet) (s : State) : (writeQ q s).host = s.host := rfl
@[simp] theorem writeQ_out (q : Packet) (s : State) : (writeQ q s).out = s.out := rfl

@[simp] theorem deliver_tx (fmt id : BitVec 4) (values : List Word) (s : State) : (deliver fmt id values s).tx = s.tx := rfl
@[simp] theorem deliver_rx_q (fmt id : BitVec 4) (values : List Word) (s : State) :
    (deliver fmt id values s).rx.q = s.rx.q := rfl
@[simp] theorem deliver_rx_fmtOut (fmt id : BitVec 4) (values : List Word) (s : State) :
    (deliver fmt id values s).rx.fmtOut = fmt := rfl
@[simp] theorem deliver_rx_idOut (fmt id : BitVec 4) (values : List Word) (s : State) :
    (deliver fmt id values s).rx.idOut = id := rfl
@[simp] theorem deliver_rx_fOut (fmt id : BitVec 4) (values : List Word) (s : State) :
    (deliver fmt id values s).rx.fOut = putSlots values 0 s.rx.fOut := rfl
@[simp] theorem deliver_rx_nFieldsOut (fmt id : BitVec 4) (values : List Word) (s : State) :
    (deliver fmt id values s).rx.nFieldsOut = BitVec.ofNat 3 values.length := rfl
@[simp] theorem deliver_rx_outValid (fmt id : BitVec 4) (values : List Word) (s : State) :
    (deliver fmt id values s).rx.outValid = true := rfl
@[simp] theorem deliver_rx_matchRow (fmt id : BitVec 4) (values : List Word) (s : State) :
    (deliver fmt id values s).rx.matchRow = s.rx.matchRow := rfl
@[simp] theorem deliver_rx_matchLen (fmt id : BitVec 4) (values : List Word) (s : State) :
    (deliver fmt id values s).rx.matchLen = s.rx.matchLen := rfl
@[simp] theorem deliver_rx_rxErr (fmt id : BitVec 4) (values : List Word) (s : State) :
    (deliver fmt id values s).rx.rxErr = s.rx.rxErr := rfl
@[simp] theorem deliver_rx_mState (fmt id : BitVec 4) (values : List Word) (s : State) :
    (deliver fmt id values s).rx.mState = s.rx.mState := rfl
@[simp] theorem deliver_rx_qWritten (fmt id : BitVec 4) (values : List Word) (s : State) :
    (deliver fmt id values s).rx.qWritten = s.rx.qWritten := rfl
@[simp] theorem deliver_rx_matchWritten (fmt id : BitVec 4) (values : List Word) (s : State) :
    (deliver fmt id values s).rx.matchWritten = s.rx.matchWritten := rfl
@[simp] theorem deliver_crc (fmt id : BitVec 4) (values : List Word) (s : State) : (deliver fmt id values s).crc = s.crc := rfl
@[simp] theorem deliver_host (fmt id : BitVec 4) (values : List Word) (s : State) : (deliver fmt id values s).host = s.host := rfl
@[simp] theorem deliver_out (fmt id : BitVec 4) (values : List Word) (s : State) : (deliver fmt id values s).out = s.out := rfl

@[simp] theorem computeQCrc_tx (s : State) : (computeQCrc s).tx = s.tx := rfl
@[simp] theorem computeQCrc_rx (s : State) : (computeQCrc s).rx = s.rx := rfl
@[simp] theorem computeQCrc_crc_rem (s : State) :
    (computeQCrc s).crc.rem = packetCrc s.rx.q := rfl
@[simp] theorem computeQCrc_crc_out (s : State) :
    (computeQCrc s).crc.out = s.crc.out := rfl
@[simp] theorem computeQCrc_crc_outWritten (s : State) :
    (computeQCrc s).crc.outWritten = s.crc.outWritten := rfl
@[simp] theorem computeQCrc_host (s : State) : (computeQCrc s).host = s.host := rfl
@[simp] theorem computeQCrc_out (s : State) : (computeQCrc s).out = s.out := rfl

@[simp] theorem setLine_tx_fmtIn (b : Bool) (s : State) :
    (setLine b s).tx.fmtIn = s.tx.fmtIn := rfl
@[simp] theorem setLine_tx_idIn (b : Bool) (s : State) :
    (setLine b s).tx.idIn = s.tx.idIn := rfl
@[simp] theorem setLine_tx_fIn (b : Bool) (s : State) :
    (setLine b s).tx.fIn = s.tx.fIn := rfl
@[simp] theorem setLine_tx_repeatsIn (b : Bool) (s : State) :
    (setLine b s).tx.repeatsIn = s.tx.repeatsIn := rfl
@[simp] theorem setLine_tx_p (b : Bool) (s : State) :
    (setLine b s).tx.p = s.tx.p := rfl
@[simp] theorem setLine_tx_seq (b : Bool) (s : State) :
    (setLine b s).tx.seq = s.tx.seq := rfl
@[simp] theorem setLine_tx_seqLen (b : Bool) (s : State) :
    (setLine b s).tx.seqLen = s.tx.seqLen := rfl
@[simp] theorem setLine_tx_seqValid (b : Bool) (s : State) :
    (setLine b s).tx.seqValid = s.tx.seqValid := rfl
@[simp] theorem setLine_tx_seqPc (b : Bool) (s : State) :
    (setLine b s).tx.seqPc = s.tx.seqPc := rfl
@[simp] theorem setLine_tx_txBusy (b : Bool) (s : State) :
    (setLine b s).tx.txBusy = s.tx.txBusy := rfl
@[simp] theorem setLine_tx_txErr (b : Bool) (s : State) :
    (setLine b s).tx.txErr = s.tx.txErr := rfl
@[simp] theorem setLine_tx_phase (b : Bool) (s : State) :
    (setLine b s).tx.phase = s.tx.phase := rfl
@[simp] theorem setLine_tx_timer (b : Bool) (s : State) :
    (setLine b s).tx.timer = s.tx.timer := rfl
@[simp] theorem setLine_tx_line (b : Bool) (s : State) :
    (setLine b s).tx.line = b := rfl
@[simp] theorem setLine_tx_written (b : Bool) (s : State) :
    (setLine b s).tx.written = s.tx.written := rfl
@[simp] theorem setLine_rx (b : Bool) (s : State) : (setLine b s).rx = s.rx := rfl
@[simp] theorem setLine_crc (b : Bool) (s : State) : (setLine b s).crc = s.crc := rfl
@[simp] theorem setLine_host (b : Bool) (s : State) : (setLine b s).host = s.host := rfl
@[simp] theorem setLine_out_trace (b : Bool) (s : State) :
    (setLine b s).out.trace = s.out.trace ++ [.line b] := rfl
@[simp] theorem setLine_out_reports (b : Bool) (s : State) :
    (setLine b s).out.reports = s.out.reports := rfl
@[simp] theorem setLine_out_runMarked (b : Bool) (s : State) :
    (setLine b s).out.runMarked = s.out.runMarked := rfl

@[simp] theorem delayUs_tx (d : Dur) (s : State) : (delayUs d s).tx = s.tx := rfl
@[simp] theorem delayUs_rx (d : Dur) (s : State) : (delayUs d s).rx = s.rx := rfl
@[simp] theorem delayUs_crc (d : Dur) (s : State) : (delayUs d s).crc = s.crc := rfl
@[simp] theorem delayUs_host (d : Dur) (s : State) : (delayUs d s).host = s.host := rfl
@[simp] theorem delayUs_out_trace (d : Dur) (s : State) :
    (delayUs d s).out.trace = s.out.trace ++ [.delay d.toNat] := rfl
@[simp] theorem delayUs_out_reports (d : Dur) (s : State) :
    (delayUs d s).out.reports = s.out.reports := rfl
@[simp] theorem delayUs_out_runMarked (d : Dur) (s : State) :
    (delayUs d s).out.runMarked = s.out.runMarked := rfl

@[simp] theorem countDown_tx_fmtIn (s : State) :
    (countDown s).tx.fmtIn = s.tx.fmtIn := rfl
@[simp] theorem countDown_tx_idIn (s : State) :
    (countDown s).tx.idIn = s.tx.idIn := rfl
@[simp] theorem countDown_tx_fIn (s : State) :
    (countDown s).tx.fIn = s.tx.fIn := rfl
@[simp] theorem countDown_tx_repeatsIn (s : State) :
    (countDown s).tx.repeatsIn = s.tx.repeatsIn := rfl
@[simp] theorem countDown_tx_p (s : State) :
    (countDown s).tx.p = s.tx.p := rfl
@[simp] theorem countDown_tx_seq (s : State) :
    (countDown s).tx.seq = s.tx.seq := rfl
@[simp] theorem countDown_tx_seqLen (s : State) :
    (countDown s).tx.seqLen = s.tx.seqLen := rfl
@[simp] theorem countDown_tx_seqValid (s : State) :
    (countDown s).tx.seqValid = s.tx.seqValid := rfl
@[simp] theorem countDown_tx_seqPc (s : State) :
    (countDown s).tx.seqPc = s.tx.seqPc := rfl
@[simp] theorem countDown_tx_txBusy (s : State) :
    (countDown s).tx.txBusy = s.tx.txBusy := rfl
@[simp] theorem countDown_tx_txErr (s : State) :
    (countDown s).tx.txErr = s.tx.txErr := rfl
@[simp] theorem countDown_tx_phase (s : State) :
    (countDown s).tx.phase = s.tx.phase := rfl
@[simp] theorem countDown_tx_timer (s : State) :
    (countDown s).tx.timer = s.tx.timer - 1#16 := rfl
@[simp] theorem countDown_tx_line (s : State) :
    (countDown s).tx.line = s.tx.line := rfl
@[simp] theorem countDown_tx_written (s : State) :
    (countDown s).tx.written = s.tx.written := rfl
@[simp] theorem countDown_rx (s : State) : (countDown s).rx = s.rx := rfl
@[simp] theorem countDown_crc (s : State) : (countDown s).crc = s.crc := rfl
@[simp] theorem countDown_host (s : State) : (countDown s).host = s.host := rfl
@[simp] theorem countDown_out_trace (s : State) :
    (countDown s).out.trace = elapseTrace s.out.trace := rfl
@[simp] theorem countDown_out_reports (s : State) :
    (countDown s).out.reports = s.out.reports := rfl
@[simp] theorem countDown_out_runMarked (s : State) :
    (countDown s).out.runMarked = s.out.runMarked := rfl

@[simp] theorem matchRowFound_tx (n : Nat) (r : Row) (s : State) : (matchRowFound n r s).tx = s.tx := rfl
@[simp] theorem matchRowFound_rx_q (n : Nat) (r : Row) (s : State) :
    (matchRowFound n r s).rx.q = s.rx.q := rfl
@[simp] theorem matchRowFound_rx_fmtOut (n : Nat) (r : Row) (s : State) :
    (matchRowFound n r s).rx.fmtOut = s.rx.fmtOut := rfl
@[simp] theorem matchRowFound_rx_idOut (n : Nat) (r : Row) (s : State) :
    (matchRowFound n r s).rx.idOut = s.rx.idOut := rfl
@[simp] theorem matchRowFound_rx_fOut (n : Nat) (r : Row) (s : State) :
    (matchRowFound n r s).rx.fOut = s.rx.fOut := rfl
@[simp] theorem matchRowFound_rx_nFieldsOut (n : Nat) (r : Row) (s : State) :
    (matchRowFound n r s).rx.nFieldsOut = s.rx.nFieldsOut := rfl
@[simp] theorem matchRowFound_rx_outValid (n : Nat) (r : Row) (s : State) :
    (matchRowFound n r s).rx.outValid = s.rx.outValid := rfl
@[simp] theorem matchRowFound_rx_matchRow (n : Nat) (r : Row) (s : State) :
    (matchRowFound n r s).rx.matchRow = n := rfl
@[simp] theorem matchRowFound_rx_matchLen (n : Nat) (r : Row) (s : State) :
    (matchRowFound n r s).rx.matchLen = r.length := rfl
@[simp] theorem matchRowFound_rx_rxErr (n : Nat) (r : Row) (s : State) :
    (matchRowFound n r s).rx.rxErr = s.rx.rxErr := rfl
@[simp] theorem matchRowFound_rx_mState (n : Nat) (r : Row) (s : State) :
    (matchRowFound n r s).rx.mState = mRowMatched := rfl
@[simp] theorem matchRowFound_rx_qWritten (n : Nat) (r : Row) (s : State) :
    (matchRowFound n r s).rx.qWritten = s.rx.qWritten := rfl
@[simp] theorem matchRowFound_rx_matchWritten (n : Nat) (r : Row) (s : State) :
    (matchRowFound n r s).rx.matchWritten = true := rfl
@[simp] theorem matchRowFound_crc (n : Nat) (r : Row) (s : State) : (matchRowFound n r s).crc = s.crc := rfl
@[simp] theorem matchRowFound_host (n : Nat) (r : Row) (s : State) : (matchRowFound n r s).host = s.host := rfl
@[simp] theorem matchRowFound_out (n : Nat) (r : Row) (s : State) : (matchRowFound n r s).out = s.out := rfl

@[simp] theorem dropAction_tx (rest : List HostAction) (s : State) : (dropAction rest s).tx = s.tx := rfl
@[simp] theorem dropAction_rx (rest : List HostAction) (s : State) : (dropAction rest s).rx = s.rx := rfl
@[simp] theorem dropAction_crc (rest : List HostAction) (s : State) : (dropAction rest s).crc = s.crc := rfl
@[simp] theorem dropAction_host_crcRun (rest : List HostAction) (s : State) :
    (dropAction rest s).host.crcRun = s.host.crcRun := rfl
@[simp] theorem dropAction_host_crcInit (rest : List HostAction) (s : State) :
    (dropAction rest s).host.crcInit = s.host.crcInit := rfl
@[simp] theorem dropAction_host_runWritten (rest : List HostAction) (s : State) :
    (dropAction rest s).host.runWritten = s.host.runWritten := rfl
@[simp] theorem dropAction_host_capture (rest : List HostAction) (s : State) :
    (dropAction rest s).host.capture = s.host.capture := rfl
@[simp] theorem dropAction_host_captureWritten (rest : List HostAction) (s : State) :
    (dropAction rest s).host.captureWritten = s.host.captureWritten := rfl
@[simp] theorem dropAction_host_queue (rest : List HostAction) (s : State) :
    (dropAction rest s).host.queue = rest := rfl
@[simp] theorem dropAction_out (rest : List HostAction) (s : State) : (dropAction rest s).out = s.out := rfl

@[simp] theorem pushAction_tx (a : HostAction) (s : State) : (pushAction a s).tx = s.tx := rfl
@[simp] theorem pushAction_rx (a : HostAction) (s : State) : (pushAction a s).rx = s.rx := rfl
@[simp] theorem pushAction_crc (a : HostAction) (s : State) : (pushAction a s).crc = s.crc := rfl
@[simp] theorem pushAction_host_crcRun (a : HostAction) (s : State) :
    (pushAction a s).host.crcRun = s.host.crcRun := rfl
@[simp] theorem pushAction_host_crcInit (a : HostAction) (s : State) :
    (pushAction a s).host.crcInit = s.host.crcInit := rfl
@[simp] theorem pushAction_host_runWritten (a : HostAction) (s : State) :
    (pushAction a s).host.runWritten = s.host.runWritten := rfl
@[simp] theorem pushAction_host_capture (a : HostAction) (s : State) :
    (pushAction a s).host.capture = s.host.capture := rfl
@[simp] theorem pushAction_host_captureWritten (a : HostAction) (s : State) :
    (pushAction a s).host.captureWritten = s.host.captureWritten := rfl
@[simp] theorem pushAction_host_queue (a : HostAction) (s : State) :
    (pushAction a s).host.queue = a :: s.host.queue := rfl
@[simp] theorem pushAction_out (a : HostAction) (s : State) : (pushAction a s).out = s.out := rfl

@[simp] theorem raiseError_crc (e : ErrorInfo) (s : State) : (raiseError e s).crc = s.crc := by
  cases e <;> rfl
@[simp] theorem raiseError_host (e : ErrorInfo) (s : State) : (raiseError e s).host = s.host := by
  cases e <;> rfl
@[simp] theorem raiseError_tx_fmtIn (e : ErrorInfo) (s : State) : (raiseError e s).tx.fmtIn = s.tx.fmtIn := by
  cases e <;> rfl
@[simp] theorem raiseError_tx_idIn (e : ErrorInfo) (s : State) : (raiseError e s).tx.idIn = s.tx.idIn := by
  cases e <;> rfl
@[simp] theorem raiseError_tx_fIn (e : ErrorInfo) (s : State) : (raiseError e s).tx.fIn = s.tx.fIn := by
  cases e <;> rfl
@[simp] theorem raiseError_tx_repeatsIn (e : ErrorInfo) (s : State) : (raiseError e s).tx.repeatsIn = s.tx.repeatsIn := by
  cases e <;> rfl
@[simp] theorem raiseError_tx_p (e : ErrorInfo) (s : State) : (raiseError e s).tx.p = s.tx.p := by
  cases e <;> rfl
@[simp] theorem raiseError_tx_seq (e : ErrorInfo) (s : State) : (raiseError e s).tx.seq = s.tx.seq := by
  cases e <;> rfl
@[simp] theorem raiseError_tx_seqLen (e : ErrorInfo) (s : State) : (raiseError e s).tx.seqLen = s.tx.seqLen := by
  cases e <;> rfl
@[simp] theorem raiseError_tx_seqValid (e : ErrorInfo) (s : State) : (raiseError e s).tx.seqValid = s.tx.seqValid := by
  cases e <;> rfl
@[simp] theorem raiseError_tx_seqPc (e : ErrorInfo) (s : State) : (raiseError e s).tx.seqPc = s.tx.seqPc := by
  cases e <;> rfl
@[simp] theorem raiseError_tx_txBusy (e : ErrorInfo) (s : State) : (raiseError e s).tx.txBusy = s.tx.txBusy := by
  cases e <;> rfl
@[simp] theorem raiseError_tx_txErr (e : ErrorInfo) (s : State) :
    (raiseError e s).tx.txErr = if errorOfTx e then errorCode e else s.tx.txErr := by
  cases e <;> rfl
@[simp] theorem raiseError_tx_phase (e : ErrorInfo) (s : State) : (raiseError e s).tx.phase = s.tx.phase := by
  cases e <;> rfl
@[simp] theorem raiseError_tx_timer (e : ErrorInfo) (s : State) : (raiseError e s).tx.timer = s.tx.timer := by
  cases e <;> rfl
@[simp] theorem raiseError_tx_line (e : ErrorInfo) (s : State) : (raiseError e s).tx.line = s.tx.line := by
  cases e <;> rfl
@[simp] theorem raiseError_tx_written (e : ErrorInfo) (s : State) : (raiseError e s).tx.written = s.tx.written := by
  cases e <;> rfl
@[simp] theorem raiseError_rx_q (e : ErrorInfo) (s : State) : (raiseError e s).rx.q = s.rx.q := by
  cases e <;> rfl
@[simp] theorem raiseError_rx_fmtOut (e : ErrorInfo) (s : State) : (raiseError e s).rx.fmtOut = s.rx.fmtOut := by
  cases e <;> rfl
@[simp] theorem raiseError_rx_idOut (e : ErrorInfo) (s : State) : (raiseError e s).rx.idOut = s.rx.idOut := by
  cases e <;> rfl
@[simp] theorem raiseError_rx_fOut (e : ErrorInfo) (s : State) : (raiseError e s).rx.fOut = s.rx.fOut := by
  cases e <;> rfl
@[simp] theorem raiseError_rx_nFieldsOut (e : ErrorInfo) (s : State) : (raiseError e s).rx.nFieldsOut = s.rx.nFieldsOut := by
  cases e <;> rfl
@[simp] theorem raiseError_rx_outValid (e : ErrorInfo) (s : State) : (raiseError e s).rx.outValid = s.rx.outValid := by
  cases e <;> rfl
@[simp] theorem raiseError_rx_matchRow (e : ErrorInfo) (s : State) : (raiseError e s).rx.matchRow = s.rx.matchRow := by
  cases e <;> rfl
@[simp] theorem raiseError_rx_matchLen (e : ErrorInfo) (s : State) : (raiseError e s).rx.matchLen = s.rx.matchLen := by
  cases e <;> rfl
@[simp] theorem raiseError_rx_rxErr (e : ErrorInfo) (s : State) :
    (raiseError e s).rx.rxErr = if errorOfTx e then s.rx.rxErr else errorCode e := by
  cases e <;> rfl
@[simp] theorem raiseError_rx_mState (e : ErrorInfo) (s : State) : (raiseError e s).rx.mState = s.rx.mState := by
  cases e <;> rfl
@[simp] theorem raiseError_rx_qWritten (e : ErrorInfo) (s : State) : (raiseError e s).rx.qWritten = s.rx.qWritten := by
  cases e <;> rfl
@[simp] theorem raiseError_rx_matchWritten (e : ErrorInfo) (s : State) : (raiseError e s).rx.matchWritten = s.rx.matchWritten := by
  cases e <;> rfl
@[simp] theorem raiseError_out_trace (e : ErrorInfo) (s : State) :
    (raiseError e s).out.trace = s.out.trace := by
  cases e <;> rfl
@[simp] theorem raiseError_out_reports (e : ErrorInfo) (s : State) :
    (raiseError e s).out.reports = s.out.reports ++ [e] := by
  cases e <;> rfl
@[simp] theorem raiseError_out_runMarked (e : ErrorInfo) (s : State) :
    (raiseError e s).out.runMarked = s.out.runMarked := by
  cases e <;> rfl

@[simp] theorem endIfDone_rx (s : State) : (endIfDone s).rx = s.rx := by
  unfold endIfDone; split <;> rfl
@[simp] theorem endIfDone_crc (s : State) : (endIfDone s).crc = s.crc := by
  unfold endIfDone; split <;> rfl
@[simp] theorem endIfDone_host (s : State) : (endIfDone s).host = s.host := by
  unfold endIfDone; split <;> rfl
@[simp] theorem endIfDone_out (s : State) : (endIfDone s).out = s.out := by
  unfold endIfDone; split <;> rfl
@[simp] theorem endIfDone_tx_fmtIn (s : State) : (endIfDone s).tx.fmtIn = s.tx.fmtIn := by
  unfold endIfDone; split <;> rfl
@[simp] theorem endIfDone_tx_idIn (s : State) : (endIfDone s).tx.idIn = s.tx.idIn := by
  unfold endIfDone; split <;> rfl
@[simp] theorem endIfDone_tx_fIn (s : State) : (endIfDone s).tx.fIn = s.tx.fIn := by
  unfold endIfDone; split <;> rfl
@[simp] theorem endIfDone_tx_repeatsIn (s : State) : (endIfDone s).tx.repeatsIn = s.tx.repeatsIn := by
  unfold endIfDone; split <;> rfl
@[simp] theorem endIfDone_tx_p (s : State) : (endIfDone s).tx.p = s.tx.p := by
  unfold endIfDone; split <;> rfl
@[simp] theorem endIfDone_tx_seq (s : State) : (endIfDone s).tx.seq = s.tx.seq := by
  unfold endIfDone; split <;> rfl
@[simp] theorem endIfDone_tx_seqLen (s : State) : (endIfDone s).tx.seqLen = s.tx.seqLen := by
  unfold endIfDone; split <;> rfl
@[simp] theorem endIfDone_tx_seqValid (s : State) : (endIfDone s).tx.seqValid = s.tx.seqValid := by
  unfold endIfDone; split <;> rfl
@[simp] theorem endIfDone_tx_seqPc (s : State) : (endIfDone s).tx.seqPc = s.tx.seqPc := by
  unfold endIfDone; split <;> rfl
@[simp] theorem endIfDone_tx_txBusy (s : State) :
    (endIfDone s).tx.txBusy = (decide (s.tx.seqPc.toNat < s.tx.seqLen.toNat) && s.tx.txBusy) := by
  unfold endIfDone; split <;> simp_all
@[simp] theorem endIfDone_tx_txErr (s : State) : (endIfDone s).tx.txErr = s.tx.txErr := by
  unfold endIfDone; split <;> rfl
@[simp] theorem endIfDone_tx_phase (s : State) : (endIfDone s).tx.phase = s.tx.phase := by
  unfold endIfDone; split <;> rfl
@[simp] theorem endIfDone_tx_timer (s : State) : (endIfDone s).tx.timer = s.tx.timer := by
  unfold endIfDone; split <;> rfl
@[simp] theorem endIfDone_tx_line (s : State) : (endIfDone s).tx.line = s.tx.line := by
  unfold endIfDone; split <;> rfl
@[simp] theorem endIfDone_tx_written (s : State) : (endIfDone s).tx.written = s.tx.written := by
  unfold endIfDone; split <;> rfl

@[simp] theorem completeSymbol_rx (s : State) : (completeSymbol s).rx = s.rx := by
  simp [completeSymbol]
@[simp] theorem completeSymbol_crc (s : State) : (completeSymbol s).crc = s.crc := by
  simp [completeSymbol]
@[simp] theorem completeSymbol_host (s : State) : (completeSymbol s).host = s.host := by
  simp [completeSymbol]
@[simp] theorem completeSymbol_out (s : State) : (completeSymbol s).out = s.out := by
  simp [completeSymbol]
@[simp] theorem completeSymbol_tx_fmtIn (s : State) :
    (completeSymbol s).tx.fmtIn = s.tx.fmtIn := by
  simp [completeSymbol]
@[simp] theorem completeSymbol_tx_idIn (s : State) :
    (completeSymbol s).tx.idIn = s.tx.idIn := by
  simp [completeSymbol]
@[simp] theorem completeSymbol_tx_fIn (s : State) :
    (completeSymbol s).tx.fIn = s.tx.fIn := by
  simp [completeSymbol]
@[simp] theorem completeSymbol_tx_repeatsIn (s : State) :
    (completeSymbol s).tx.repeatsIn = s.tx.repeatsIn := by
  simp [completeSymbol]
@[simp] theorem completeSymbol_tx_p (s : State) :
    (completeSymbol s).tx.p = s.tx.p := by
  simp [completeSymbol]
@[simp] theorem completeSymbol_tx_seq (s : State) :
    (completeSymbol s).tx.seq = s.tx.seq := by
  simp [completeSymbol]
@[simp] theorem completeSymbol_tx_seqLen (s : State) :
    (completeSymbol s).tx.seqLen = s.tx.seqLen := by
  simp [completeSymbol]
@[simp] theorem completeSymbol_tx_seqValid (s : State) :
    (completeSymbol s).tx.seqValid = s.tx.seqValid := by
  simp [completeSymbol]
@[simp] theorem completeSymbol_tx_seqPc (s : State) :
    (completeSymbol s).tx.seqPc = s.tx.seqPc + 1#9 := by
  simp [completeSymbol]
@[simp] theorem completeSymbol_tx_txBusy (s : State) :
    (completeSymbol s).tx.txBusy =
      (decide ((s.tx.seqPc + 1#9).toNat < s.tx.seqLen.toNat) && s.tx.txBusy) := by
  simp [completeSymbol]
@[simp] theorem completeSymbol_tx_txErr (s : State) :
    (completeSymbol s).tx.txErr = s.tx.txErr := by
  simp [completeSymbol]
@[simp] theorem completeSymbol_tx_phase (s : State) :
    (completeSymbol s).tx.phase = .between := by
  simp [completeSymbol]
@[simp] theorem completeSymbol_tx_timer (s : State) :
    (completeSymbol s).tx.timer = 0#16 := by
  simp [completeSymbol]
@[simp] theorem completeSymbol_tx_line (s : State) :
    (completeSymbol s).tx.line = s.tx.line := by
  simp [completeSymbol]
@[simp] theorem completeSymbol_tx_written (s : State) :
    (completeSymbol s).tx.written = s.tx.written := by
  simp [completeSymbol]

@[simp] theorem putPacket_tx_fmtIn (p : Packet) (s : State) :
    (putPacket p s).tx.fmtIn = s.tx.fmtIn := rfl
@[simp] theorem putPacket_tx_idIn (p : Packet) (s : State) :
    (putPacket p s).tx.idIn = s.tx.idIn := rfl
@[simp] theorem putPacket_tx_fIn (p : Packet) (s : State) :
    (putPacket p s).tx.fIn = s.tx.fIn := rfl
@[simp] theorem putPacket_tx_repeatsIn (p : Packet) (s : State) :
    (putPacket p s).tx.repeatsIn = s.tx.repeatsIn := rfl
@[simp] theorem putPacket_tx_p (p : Packet) (s : State) :
    (putPacket p s).tx.p = p := rfl
@[simp] theorem putPacket_tx_seq (p : Packet) (s : State) :
    (putPacket p s).tx.seq = s.tx.seq := rfl
@[simp] theorem putPacket_tx_seqLen (p : Packet) (s : State) :
    (putPacket p s).tx.seqLen = s.tx.seqLen := rfl
@[simp] theorem putPacket_tx_seqValid (p : Packet) (s : State) :
    (putPacket p s).tx.seqValid = s.tx.seqValid := rfl
@[simp] theorem putPacket_tx_seqPc (p : Packet) (s : State) :
    (putPacket p s).tx.seqPc = s.tx.seqPc := rfl
@[simp] theorem putPacket_tx_txBusy (p : Packet) (s : State) :
    (putPacket p s).tx.txBusy = s.tx.txBusy := rfl
@[simp] theorem putPacket_tx_txErr (p : Packet) (s : State) :
    (putPacket p s).tx.txErr = s.tx.txErr := rfl
@[simp] theorem putPacket_tx_phase (p : Packet) (s : State) :
    (putPacket p s).tx.phase = s.tx.phase := rfl
@[simp] theorem putPacket_tx_timer (p : Packet) (s : State) :
    (putPacket p s).tx.timer = s.tx.timer := rfl
@[simp] theorem putPacket_tx_line (p : Packet) (s : State) :
    (putPacket p s).tx.line = s.tx.line := rfl
@[simp] theorem putPacket_tx_written (p : Packet) (s : State) :
    (putPacket p s).tx.written = { s.tx.written with p := BitVec.allOnes 10 } := rfl
@[simp] theorem putPacket_rx (p : Packet) (s : State) : (putPacket p s).rx = s.rx := rfl
@[simp] theorem putPacket_crc_rem (p : Packet) (s : State) :
    (putPacket p s).crc.rem = packetCrc p := rfl
@[simp] theorem putPacket_crc_out (p : Packet) (s : State) :
    (putPacket p s).crc.out = s.crc.out := rfl
@[simp] theorem putPacket_crc_outWritten (p : Packet) (s : State) :
    (putPacket p s).crc.outWritten = s.crc.outWritten := rfl
@[simp] theorem putPacket_host (p : Packet) (s : State) : (putPacket p s).host = s.host := rfl
@[simp] theorem putPacket_out (p : Packet) (s : State) : (putPacket p s).out = s.out := rfl

@[simp] theorem putCrc_tx (r : Byte) (s : State) : (putCrc r s).tx = s.tx := rfl
@[simp] theorem putCrc_rx (r : Byte) (s : State) : (putCrc r s).rx = s.rx := rfl
@[simp] theorem putCrc_crc (r : Byte) (s : State) : (putCrc r s).crc = ⟨r, r, true⟩ := rfl
@[simp] theorem putCrc_host (r : Byte) (s : State) : (putCrc r s).host = s.host := rfl
@[simp] theorem putCrc_out (r : Byte) (s : State) : (putCrc r s).out = s.out := rfl

@[simp] theorem writeBurst_tx_fmtIn (n : Nat) (s : State) :
    (writeBurst n s).tx.fmtIn = s.tx.fmtIn := rfl
@[simp] theorem writeBurst_tx_idIn (n : Nat) (s : State) :
    (writeBurst n s).tx.idIn = s.tx.idIn := rfl
@[simp] theorem writeBurst_tx_fIn (n : Nat) (s : State) :
    (writeBurst n s).tx.fIn = s.tx.fIn := rfl
@[simp] theorem writeBurst_tx_repeatsIn (n : Nat) (s : State) :
    (writeBurst n s).tx.repeatsIn = s.tx.repeatsIn := rfl
@[simp] theorem writeBurst_tx_p (n : Nat) (s : State) :
    (writeBurst n s).tx.p = s.tx.p := rfl
@[simp] theorem writeBurst_tx_seq (n : Nat) (s : State) :
    (writeBurst n s).tx.seq = writeSeqRun (burst s.tx.p n) 0 s.tx.seq := rfl
@[simp] theorem writeBurst_tx_seqLen (n : Nat) (s : State) :
    (writeBurst n s).tx.seqLen = BitVec.ofNat 9 (burstLen n) := rfl
@[simp] theorem writeBurst_tx_seqValid (n : Nat) (s : State) :
    (writeBurst n s).tx.seqValid = true := rfl
@[simp] theorem writeBurst_tx_seqPc (n : Nat) (s : State) :
    (writeBurst n s).tx.seqPc = s.tx.seqPc := rfl
@[simp] theorem writeBurst_tx_txBusy (n : Nat) (s : State) :
    (writeBurst n s).tx.txBusy = s.tx.txBusy := rfl
@[simp] theorem writeBurst_tx_txErr (n : Nat) (s : State) :
    (writeBurst n s).tx.txErr = s.tx.txErr := rfl
@[simp] theorem writeBurst_tx_phase (n : Nat) (s : State) :
    (writeBurst n s).tx.phase = s.tx.phase := rfl
@[simp] theorem writeBurst_tx_timer (n : Nat) (s : State) :
    (writeBurst n s).tx.timer = s.tx.timer := rfl
@[simp] theorem writeBurst_tx_line (n : Nat) (s : State) :
    (writeBurst n s).tx.line = s.tx.line := rfl
@[simp] theorem writeBurst_tx_written (n : Nat) (s : State) :
    (writeBurst n s).tx.written = s.tx.written := rfl
@[simp] theorem writeBurst_rx (n : Nat) (s : State) : (writeBurst n s).rx = s.rx := rfl
@[simp] theorem writeBurst_crc (n : Nat) (s : State) : (writeBurst n s).crc = s.crc := rfl
@[simp] theorem writeBurst_host (n : Nat) (s : State) : (writeBurst n s).host = s.host := rfl
@[simp] theorem writeBurst_out (n : Nat) (s : State) : (writeBurst n s).out = s.out := rfl

end Sys2Proof.Machine
end

