-- ==== Sys2Proof/Laws/Exec.lean ====
section
/-!
SUPPORT. Laws/Exec.lean: what the shared operations can do, each said once: the checksum test, the sequencer's turn, a
whole symbol, and a microsecond of the trace.
-/

namespace Sys2Proof.Machine

/-- Marks that are all set, bit by bit. -/
theorem marks_full_iff {n : Nat} (h : BitVec n) : h = BitVec.allOnes n ↔ ∀ i < n, h.getLsbD i = true := by
  constructor
  · intro e i hi
    rw [e, BitVec.getLsbD_allOnes, decide_eq_true hi]
  · intro e
    apply BitVec.eq_of_getLsbD_eq
    intro i hi
    rw [e i hi, BitVec.getLsbD_allOnes, decide_eq_true hi]

/-- A host write sets the mark of its byte or slot and leaves the others. -/
theorem getLsbD_or_markBit {n : Nat} (h : BitVec n) (i m : Nat) (hm : m < n) :
    (h ||| markBit n i).getLsbD m = (decide (m = i) || h.getLsbD m) := by
  have e : (markBit n i).getLsbD m = decide (m = i) := by
    rw [markBit, BitVec.getLsbD_shiftLeft, BitVec.getLsbD_one, decide_eq_true hm]
    by_cases h1 : m < i
    · have h2 : ¬ m = i := by omega
      simp [h1, h2]
    · by_cases h2 : m = i
      · subst h2
        have h3 : 0 < n := by omega
        simp [h3]
      · have h3 : ¬ m - i = 0 := by omega
        simp [h1, h2, h3]
  rw [BitVec.getLsbD_or, e, Bool.or_comm]

/-- COMPILE's operands were written since reset (70_reset_and_hazards R264). -/
theorem compileOperandsWritten_iff (s : State) :
    compileOperandsWritten s = true ↔ s.tx.written.repeatsIn = true ∧ ∀ i < 10, s.tx.written.p.getLsbD i = true := by
  rw [compileOperandsWritten, Bool.and_eq_true, decide_eq_true_eq, marks_full_iff]

/-- DECODE's operands were written since reset (70_reset_and_hazards R264). -/
theorem decodeOperandsWritten_iff (s : State) :
    decodeOperandsWritten s = true ↔ ∀ i < 10, s.rx.qWritten.getLsbD i = true := by
  rw [decodeOperandsWritten, decide_eq_true_eq, marks_full_iff]

/-- A registered layout has at most six fields (41_codec R142). -/
theorem layout_length_le (fmt : BitVec 4) (l : List FieldDesc) (h : layout fmt = some l) : l.length ≤ 6 := by
  unfold layout at h
  split at h <;> cases h <;> decide

/-- A set of written slots covers those an ENCODE reads (70_reset_and_hazards R264). -/
theorem slotsRead_covered_iff (fmt : Word) (w : BitVec 6) :
    w &&& slotsRead fmt = slotsRead fmt ↔
      ∀ l m, layout (fmt.setWidth 4) = some l → m < l.length → w.getLsbD m = true := by
  unfold slotsRead
  cases hl : layout (fmt.setWidth 4) with
  | none => simp
  | some l =>
    have h6 := layout_length_le _ _ hl
    have hbit : ∀ m, (BitVec.ofNat 6 (2 ^ l.length - 1)).getLsbD m = decide (m < l.length) := by
      intro m
      rw [BitVec.getLsbD_ofNat, Nat.testBit_two_pow_sub_one]
      by_cases h : m < l.length
      · have : m < 6 := by omega
        simp [h, this]
      · simp [h]
    constructor
    · intro e l' m h' hm
      cases h'
      have e2 := congrArg (fun x => x.getLsbD m) e
      simp only [BitVec.getLsbD_and, hbit, decide_eq_true hm, Bool.and_true] at e2
      exact e2
    · intro h
      apply BitVec.eq_of_getLsbD_eq
      intro m _
      rw [BitVec.getLsbD_and, hbit]
      by_cases hm : m < l.length
      · rw [h l m rfl hm, Bool.true_and]
      · simp [hm]

/-- ENCODE's operands were written since reset (70_reset_and_hazards R264). -/
theorem encodeOperandsWritten_iff (s : State) :
    encodeOperandsWritten s = true ↔ s.tx.written.fmtIn = true ∧ s.tx.written.idIn = true ∧
      ∀ l m, layout (s.tx.fmtIn.setWidth 4) = some l → m < l.length → s.tx.written.fIn.getLsbD m = true := by
  rw [encodeOperandsWritten, Bool.and_eq_true, Bool.and_eq_true, decide_eq_true_eq, and_assoc, slotsRead_covered_iff]

/-- An operation whose operands were written since reset runs (70_reset_and_hazards R264). -/
theorem launch_of_written (written : Bool) (run : State → State) (s : State) (h : written = true) :
    launch written run s = .next (run s) := by
  simp [launch, h]

/-- An operation that would read an operand nothing has written is turned away (70_reset_and_hazards R266). -/
theorem launch_of_unwritten (written : Bool) (run : State → State) (s : State) (h : written = false) :
    launch written run s = .next (turnAway s) := by
  simp [launch, h]

/-- All a launch can do: it always answers a next state, of the operation or of its turning away. -/
theorem launch_next (written : Bool) (run : State → State) (s t : State) (h : launch written run s = .next t) :
    (written = true ∧ t = run s) ∨ (written = false ∧ t = turnAway s) := by
  cases hw : written <;> cases h <;> simp [hw]

/-- A transmit launch is refused while PLAY runs (70_reset_and_hazards R271). -/
theorem launchTx_of_busy (written : Bool) (run : State → State) (s : State) (h : s.tx.txBusy = true) :
    launchTx written run s = .refused .txBusy := by
  simp [launchTx, h]

/-- An idle transmit half launches as any unit does, its error register cleared first (60_exceptions R243). -/
theorem launchTx_of_idle (written : Bool) (run : State → State) (s : State) (h : s.tx.txBusy = false) :
    launchTx written run s = launch written (fun u => run (beginTx u)) s := by
  simp [launchTx, h]

/-- An idle transmit half with written operands begins the operation (60_exceptions R243). -/
theorem launchTx_of_written (written : Bool) (run : State → State) (s : State) (h : s.tx.txBusy = false)
    (hw : written = true) : launchTx written run s = .next (run (beginTx s)) := by
  rw [launchTx_of_idle _ _ _ h, launch_of_written _ _ _ hw]

/-- An idle transmit half turns away what would read an operand nothing has written (70_reset_and_hazards R266). -/
theorem launchTx_of_unwritten (written : Bool) (run : State → State) (s : State) (h : s.tx.txBusy = false)
    (hw : written = false) : launchTx written run s = .next (turnAway s) := by
  rw [launchTx_of_idle _ _ _ h, launch_of_unwritten _ _ _ hw]

/-- All a transmit launch can do when it answers a next state. -/
theorem launchTx_next (written : Bool) (run : State → State) (s t : State) (h : launchTx written run s = .next t) :
    s.tx.txBusy = false ∧
      ((written = true ∧ t = run (beginTx s)) ∨ (written = false ∧ t = turnAway s)) := by
  unfold launchTx at h
  split at h
  · cases h
  · rename_i hb
    exact ⟨by simpa using hb, launch_next _ _ _ _ h⟩

/-- DECODE of a `Q` written since reset (41_codec R148). -/
theorem execDecode_of_written (s : State) (h : decodeOperandsWritten s = true) :
    execDecode s = .next (checkedThen acceptByLayout s) := launch_of_written _ _ _ h

/-- CRC8 of a run the host supplied (40_crc8 R126). -/
theorem execCrc8_of_written (s : State) (h : crc8OperandsWritten s = true) :
    execCrc8 s = .next (putCrc (crc8 s.host.crcRun s.host.crcInit) s) := launch_of_written _ _ _ h

/-- MATCH of a capture the host supplied (44_matcher R206). -/
theorem execMatchRows_of_written (s : State) (h : matchOperandsWritten s = true) :
    execMatchRows s = .next (matchCapture s) := launch_of_written _ _ _ h

/-- Once the ten bytes of `Q` are written, DECODE may read them (70_reset_and_hazards R264). -/
@[simp] theorem decodeOperandsWritten_writeQ (q : Packet) (s : State) :
    decodeOperandsWritten (writeQ q s) = true := by
  simp [decodeOperandsWritten]

/-- A packet whose CRC matches is accepted (41_codec R148). -/
theorem checkedThen_of_match (accept : State → State) (s : State) (h : packetCrc s.rx.q = storedCrc s.rx.q) :
    checkedThen accept s = accept (computeQCrc (beginRx s)) := by
  unfold checkedThen
  simp only [computeQCrc_rx, beginRx_rx_q, h, if_true]

/-- A packet whose CRC does not match raises ChecksumError (41_codec R149). -/
theorem checkedThen_of_mismatch (accept : State → State) (s : State) (h : packetCrc s.rx.q ≠ storedCrc s.rx.q) :
    checkedThen accept s = raiseChecksum (computeQCrc (beginRx s)) := by
  unfold checkedThen
  simp only [computeQCrc_rx, beginRx_rx_q, h, if_false]

/-- Two ways to accept that agree on every state with this packet in `Q` decode it alike. -/
theorem checkedThen_congr (f g : State → State) (s : State) (h : ∀ u : State, u.rx.q = s.rx.q → f u = g u) :
    checkedThen f s = checkedThen g s := by
  unfold checkedThen
  simp only
  split
  · exact h _ rfl
  · rfl

/-- No layout is registered for the selectors 2 to 15 (41_codec R135). -/
theorem layout_of_two_le (fmt : BitVec 4) (h : 2 ≤ fmt.toNat) : layout fmt = none := by
  unfold layout
  split <;> first | omega | rfl

/-- What a sound sequence is (43_sequencer R202). -/
theorem sequenceSound_iff (s : State) :
    sequenceSound s = true ↔ s.tx.seqLen.toNat ≤ 337 ∧ readSeq s.tx.seq s.tx.seqLen.toNat = some 7#3 ∧
      ∀ i < s.tx.seqLen.toNat, (readSeq s.tx.seq i).isSome = true := by
  unfold sequenceSound
  rw [Bool.and_eq_true, Bool.and_eq_true, decide_eq_true_eq, decide_eq_true_eq, seqWritten_iff, and_assoc]
  rfl

/-- Between symbols, below `SEQ_LEN`, the sequencer runs the symbol that stands at `SEQ_PC` (43_sequencer R186). -/
theorem sequencerTurn_of_symbol (s : State) (c : SymCode) (hb : s.tx.txBusy = true) (hp : s.tx.phase = .between)
    (hl : s.tx.seqPc.toNat < s.tx.seqLen.toNat) (hc : s.tx.seqPc.toNat < 338)
    (hr : readSeq s.tx.seq s.tx.seqPc.toNat = some c) : sequencerTurn s = .run (decodeWord (.symbol c)) s := by
  have h1 : ¬ 338 ≤ s.tx.seqPc.toNat := by omega
  have h2 : ¬ s.tx.seqLen.toNat ≤ s.tx.seqPc.toNat := by omega
  simp [sequencerTurn, hb, hp, h2, fetchSymbol, Config.cap, h1, hr]

/-- The eight symbol codes. -/
theorem symCode_cases (c : SymCode) :
    c = 0#3 ∨ c = 1#3 ∨ c = 2#3 ∨ c = 3#3 ∨ c = 4#3 ∨ c = 5#3 ∨ c = 6#3 ∨ c = 7#3 := by
  revert c
  decide

/-- A code with a timing is played (43_sequencer R185). -/
theorem exec_symbol_of_timing (c : SymCode) (t : SymbolTiming) (h : timing c = some t) (s : State) :
    exec (decodeWord (.symbol c)) s = .next (playSymbol t s) := by
  rcases symCode_cases c with rfl | rfl | rfl | rfl | rfl | rfl | rfl | rfl <;> cases h <;> rfl

/-- A code without a timing ends PLAY (43_sequencer R192, R193). -/
theorem exec_symbol_of_no_timing (c : SymCode) (h : timing c = none) (s : State) :
    exec (decodeWord (.symbol c)) s = .next (abortPlay s) := by
  rcases symCode_cases c with rfl | rfl | rfl | rfl | rfl | rfl | rfl | rfl <;> cases h <;> rfl

/-- A completed symbol leaves the sequencer between symbols. -/
@[simp] theorem completeSymbol_phase (s : State) : (completeSymbol s).tx.phase = .between := by simp [completeSymbol]

/-- A microsecond after the line was driven begins a delay (43_sequencer R182). -/
theorem elapseTrace_line (l : List Event) (b : Bool) :
    elapseTrace (l ++ [.line b]) = l ++ [.line b, .delay 1] := by
  induction l with
  | nil => rfl
  | cons e l ih =>
    cases l with
    | nil => cases e <;> rfl
    | cons a l =>
      simp only [List.cons_append, elapseTrace] at *
      rw [ih]

/-- A microsecond in a delay makes it longer (43_sequencer R182). -/
theorem elapseTrace_delay (l : List Event) (d : Nat) :
    elapseTrace (l ++ [.delay d]) = l ++ [.delay (d + 1)] := by
  induction l with
  | nil => rfl
  | cons e l ih =>
    cases l with
    | nil => cases e <;> rfl
    | cons a l =>
      simp only [List.cons_append, elapseTrace] at *
      rw [ih]

/-- Microseconds add up. -/
theorem elapseN_add (m n : Nat) (s : State) : elapseN (m + n) s = elapseN n (elapseN m s) := by
  induction m generalizing s with
  | zero => simp [elapseN]
  | succ m ih =>
    rw [Nat.succ_add]
    exact ih _

/-- Between symbols no delay runs. -/
theorem elapseN_between (n : Nat) (s : State) (h : s.tx.phase = .between) : elapseN n s = s := by
  induction n with
  | zero => rfl
  | succ n ih =>
    have e : elapse s = s := by simp [elapse, h]
    rw [elapseN, e]
    exact ih

end Sys2Proof.Machine
end

