-- ==== Sys2Proof/Laws/PerInstr.lean ====
section
/-!
SUPPORT. Laws/PerInstr.lean: statements about every instruction as syntax, one lemma per constructor.
-/

namespace Sys2Proof.Laws.FixedBits

/-- The bits of a word that the rows of spec/opcode_table.json test: a code's three bits, a packet's high nibble of
byte 0 (30_encoding R119). -/
def testedBits : FetchWord → BitVec 4
  | .operation c => c.setWidth 4
  | .symbol c => c.setWidth 4
  | .packet p => packetSlice p 0 4

/-- The mask and the match of an instruction's row over the tested bits, as spec/opcode_table.json lists them. -/
def fixed : Instr → BitVec 4 × BitVec 4
  | .opNone => (0x7, 0x0)
  | .crc8 => (0x7, 0x1)
  | .encode => (0x7, 0x2)
  | .decode => (0x7, 0x3)
  | .compile => (0x7, 0x4)
  | .play => (0x7, 0x5)
  | .matchRows => (0x7, 0x6)
  | .opReserved => (0x7, 0x7)
  | .sync => (0x7, 0x0)
  | .syncGap => (0x7, 0x1)
  | .zero => (0x7, 0x2)
  | .one => (0x7, 0x3)
  | .imGap => (0x7, 0x4)
  | .symReserved5 => (0x7, 0x5)
  | .symReserved6 => (0x7, 0x6)
  | .noneSym => (0x7, 0x7)
  | .pktFmt0 _ _ _ _ _ => (0xf, 0x0)
  | .pktFmt1 _ _ _ _ _ _ _ _ => (0xf, 0x1)
  | .pktReserved2to3 _ _ _ _ => (0xe, 0x2)
  | .pktReserved4to7 _ _ _ _ => (0xc, 0x4)
  | .pktReserved8to15 _ _ _ _ => (0x8, 0x8)

/-- A well-formed instruction's word has its row's fixed bits. -/
def Statement (i : Instr) : Prop := i.wf = true → testedBits (encode i) &&& (fixed i).1 = (fixed i).2

theorem opNone : Statement .opNone := fun _ => by decide
theorem crc8 : Statement .crc8 := fun _ => by decide
theorem encode : Statement .encode := fun _ => by decide
theorem decode : Statement .decode := fun _ => by decide
theorem compile : Statement .compile := fun _ => by decide
theorem play : Statement .play := fun _ => by decide
theorem matchRows : Statement .matchRows := fun _ => by decide
theorem opReserved : Statement .opReserved := fun _ => by decide
theorem sync : Statement .sync := fun _ => by decide
theorem syncGap : Statement .syncGap := fun _ => by decide
theorem zero : Statement .zero := fun _ => by decide
theorem one : Statement .one := fun _ => by decide
theorem imGap : Statement .imGap := fun _ => by decide
theorem symReserved5 : Statement .symReserved5 := fun _ => by decide
theorem symReserved6 : Statement .symReserved6 := fun _ => by decide
theorem noneSym : Statement .noneSym := fun _ => by decide

theorem pktFmt0 (id : BitVec 4) (t : BitVec 12) (r : BitVec 44) (v c : Byte) : Statement (.pktFmt0 id t r v c) := by
  intro _
  simp [testedBits, fixed, Sys2Proof.encode, packetSlice_pktFmt0Bits]

theorem pktFmt1 (id : BitVec 4) (t1 t2 : BitVec 12) (s1 s2 : Byte) (p : BitVec 16) (v c : Byte) :
    Statement (.pktFmt1 id t1 t2 s1 s2 p v c) := by
  intro _
  simp [testedBits, fixed, Sys2Proof.encode, packetSlice_pktFmt1Bits]

/-- The tested bits of a reserved packet are its selector, so the row's mask and match say the selector's range. -/
theorem pktReserved2to3 (fmt id : BitVec 4) (payload : BitVec 64) (c : Byte) :
    Statement (.pktReserved2to3 fmt id payload c) := by
  have h : ∀ f : BitVec 4, fmtInRange 2 3 f = true → f &&& 0xe = 0x2 := by decide
  intro w
  simpa [testedBits, fixed, Sys2Proof.encode, packetSlice_pktReservedBits] using h fmt w

theorem pktReserved4to7 (fmt id : BitVec 4) (payload : BitVec 64) (c : Byte) :
    Statement (.pktReserved4to7 fmt id payload c) := by
  have h : ∀ f : BitVec 4, fmtInRange 4 7 f = true → f &&& 0xc = 0x4 := by decide
  intro w
  simpa [testedBits, fixed, Sys2Proof.encode, packetSlice_pktReservedBits] using h fmt w

theorem pktReserved8to15 (fmt id : BitVec 4) (payload : BitVec 64) (c : Byte) :
    Statement (.pktReserved8to15 fmt id payload c) := by
  have h : ∀ f : BitVec 4, fmtInRange 8 15 f = true → f &&& 0x8 = 0x8 := by decide
  intro w
  simpa [testedBits, fixed, Sys2Proof.encode, packetSlice_pktReservedBits] using h fmt w

end Sys2Proof.Laws.FixedBits
end

