-- ==== Sys2Proof/Tests/Slice0.lean ====
section
/-!
SUPPORT. Tests/Slice0.lean: small tests. Expected results are the spec's own vectors (spec/95_test_vectors.md, named in
each test) or its encoding tables; the witnesses show that the hypotheses of the statements can be met together.
-/

namespace Sys2Proof.Tests

open Sys2Proof.Machine Sys2Proof.Safety

/-- A view of the next state an outcome holds. -/
def after {α : Type} (o : Host.Outcome State Fault Refusal) (f : State → α) : Option α :=
  match o with
  | .next s => some (f s)
  | .fault _ => none
  | .refused _ => none

/-- The refusal an outcome holds. -/
def refusal (o : Host.Outcome State Fault Refusal) : Option Refusal :=
  match o with
  | .next _ => none
  | .fault _ => none
  | .refused r => some r

/-! ### Well-formedness: an ill-formed term for each check -/

theorem test_wf_refuses_fmt_out_of_2_to_3 : (Instr.pktReserved2to3 4#4 0#4 0#64 0#8).wf = false := by decide
theorem test_wf_refuses_fmt_out_of_4_to_7 : (Instr.pktReserved4to7 8#4 0#4 0#64 0#8).wf = false := by decide
theorem test_wf_refuses_fmt_out_of_8_to_15 : (Instr.pktReserved8to15 7#4 0#4 0#64 0#8).wf = false := by decide
theorem test_wf_accepts_fmt_at_its_bounds :
    (Instr.pktReserved2to3 2#4 0#4 0#64 0#8).wf = true ∧ (Instr.pktReserved2to3 3#4 0#4 0#64 0#8).wf = true ∧
    (Instr.pktReserved4to7 4#4 0#4 0#64 0#8).wf = true ∧ (Instr.pktReserved4to7 7#4 0#4 0#64 0#8).wf = true ∧
    (Instr.pktReserved8to15 8#4 0#4 0#64 0#8).wf = true ∧
    (Instr.pktReserved8to15 15#4 0#4 0#64 0#8).wf = true := by decide

/-! ### Decoding: every constructor's word, written out from spec/30_encoding.md -/

theorem test_decode_operations :
    decodeWord (.operation 0b000#3) = .opNone ∧ decodeWord (.operation 0b001#3) = .crc8 ∧
    decodeWord (.operation 0b010#3) = .encode ∧ decodeWord (.operation 0b011#3) = .decode ∧
    decodeWord (.operation 0b100#3) = .compile ∧ decodeWord (.operation 0b101#3) = .play ∧
    decodeWord (.operation 0b110#3) = .matchRows ∧ decodeWord (.operation 0b111#3) = .opReserved := by decide

theorem test_decode_symbols :
    decodeWord (.symbol 0b000#3) = .sync ∧ decodeWord (.symbol 0b001#3) = .syncGap ∧
    decodeWord (.symbol 0b010#3) = .zero ∧ decodeWord (.symbol 0b011#3) = .one ∧
    decodeWord (.symbol 0b100#3) = .imGap ∧ decodeWord (.symbol 0b101#3) = .symReserved5 ∧
    decodeWord (.symbol 0b110#3) = .symReserved6 ∧ decodeWord (.symbol 0b111#3) = .noneSym := by decide

/-- Pattern of R98: 0000 iiii, twelve t, forty-four r, eight v, eight c. -/
theorem test_decode_pkt_fmt0 :
    decodeWord (.packet 0b0000_1001_100000000001_10000000000000000000000000000000000000000001_10111100_10010001#80) =
      .pktFmt0 0b1001#4 0b100000000001#12 0b10000000000000000000000000000000000000000001#44 0xbc#8 0x91#8 := by decide

/-- Pattern of R99: 0001 iiii, a, b, h, l, p, v, c. -/
theorem test_decode_pkt_fmt1 :
    decodeWord (.packet
      0b0001_0010_000011010111_111111001011_00101111_01100011_0010011110010100_10000101_11011110#80) =
      .pktFmt1 2#4 0x0d7#12 0xfcb#12 0x2f#8 0x63#8 0x2794#16 0x85#8 0xde#8 := by decide

theorem test_decode_pkt_reserved :
    decodeWord (.packet 0x30000000000000000000#80) = .pktReserved2to3 3#4 0#4 0#64 0#8 ∧
    decodeWord (.packet 0x740000000000000000b7#80) = .pktReserved4to7 7#4 4#4 0#64 0xb7#8 ∧
    decodeWord (.packet 0xff0000000000000000dd#80) = .pktReserved8to15 15#4 15#4 0#64 0xdd#8 := by decide

theorem test_decode_bytes_refuses_by_name :
    decodeBytes .operation [] = .error .codeLength ∧ decodeBytes .symbol [0#8, 0#8] = .error .codeLength ∧
    decodeBytes .operation [0x08#8] = .error .codeHighBits ∧ decodeBytes .packet [0x09#8] = .error .packetLength := by
  decide

theorem test_decode_table_word :
    decodeTableWord 8 2 = some .encode ∧ decodeTableWord 8 8 = none ∧ decodeTableWord 16 2 = none ∧
    decodeTableWord 80 0x10000000000000000000 = some (.pktFmt1 0#4 0#12 0#12 0#8 0#8 0#16 0#8 0#8) := by decide

/-! ### The constant tables -/

/-- Table spot checks of spec/95_test_vectors.md. -/
theorem test_crc_tab_spots :
    crcTab 0x02#8 = 0xb9#8 ∧ crcTab 0x07#8 = 0xcb#8 ∧ crcTab 0x80#8 = 0xa2#8 ∧ crcTab 0xa3#8 = 0x6f#8 ∧
    crcTab 0xaa#8 = 0xa5#8 ∧ crcTab 0xff#8 = 0x3c#8 := by decide

/-! ### CRC8 -/

/-- The nine bytes of the source's packet. -/
def sourceRun : List Byte := [0x09#8, 0x0e#8, 0x00#8, 0xd7#8, 0x2d#8, 0x32#8, 0x27#8, 0x35#8, 0xbc#8]

/-- A state with operands of CRC8, presented by the host. -/
def runState (bytes : List Byte) (init : Byte) : State :=
  { State.reset with host.crcRun := bytes, host.crcInit := init, host.runWritten := true }

/-- V9. -/
theorem test_crc8_source_packet :
    after (exec .crc8 (runState sourceRun 0xaa#8)) (fun t => (t.crc.out, t.crc.rem)) = some (0x91#8, 0x91#8) := by decide

/-- V9 and V8 with init 00, V1, V7. -/
theorem test_crc8_vectors :
    crc8 sourceRun 0x00#8 = 0xbc#8 ∧ crc8 (List.replicate 9 0#8) 0x00#8 = 0x00#8 ∧
    crc8 (List.replicate 9 0#8) 0xaa#8 = 0x2d#8 ∧
    crc8 [0x31#8, 0x32#8, 0x33#8, 0x34#8, 0x35#8, 0x36#8, 0x37#8, 0x38#8, 0x39#8] 0xaa#8 = 0xb9#8 := by decide

/-! ### ENCODE -/

/-- A state with operands of ENCODE, each written by the host. -/
def encodeState (fmt id : Word) (f : FieldRegs) : State :=
  { State.reset with tx.fmtIn := fmt, tx.idIn := id, tx.fIn := f, tx.txErr := 5#3,
                     tx.written := ⟨true, true, 0b111111#6, false, 0#10⟩ }

/-- E6: a negative temperature. -/
theorem test_encode_format0 :
    after (exec .encode (encodeState 0#32 5#32 ⟨-105#32, 120#32, 0#32, 0#32, 0#32, 0#32⟩)) (fun t => (t.tx.p, t.tx.txErr))
      = some (0x05f97000000000007804#80, 0#3) := by decide

/-- E10 (format 1), E12 and E14 (unregistered formats; operands truncated to four bits), E15 (truncated fields). -/
theorem test_encode_other_vectors :
    encodePacket 1#32 2#32 ⟨215#32, -53#32, 47#32, 99#32, 10132#32, 133#32⟩ = 0x120d7fcb2f63279485de#80 ∧
    encodePacket 7#32 4#32 ⟨1#32, 2#32, 3#32, 4#32, 5#32, 6#32⟩ = 0x740000000000000000b7#80 ∧
    encodePacket 0x1f#32 0x2a#32 ⟨4101#32, 263#32, 0#32, 0#32, 0#32, 0#32⟩ = 0xfa000000000000000082#80 ∧
    encodePacket 0#32 1#32 ⟨2048#32, 300#32, 0#32, 0#32, 0#32, 0#32⟩ = 0x01800000000000002c2a#80 := by decide

/-- E1 with `CRC_INIT` 00. -/
theorem test_encode_init_zero :
    stampFrom Config.crcInitOriginal (encodeBody 0#32 9#32 ⟨224#32, 188#32, 0#32, 0#32, 0#32, 0#32⟩)
      = 0x090e000000000000bcf0#80 := by decide

/-! ### DECODE and the packet rows -/

/-- A state with a packet in `Q`. -/
def withPacket (q : Packet) : State := Ref.withQ q State.reset

/-- What a receive operation reports: `RX_ERR`, the format, the id and the six field slots. -/
def rxReport (s : State) : List (Option Int) :=
  [some (s.rx.rxErr.toNat : Int), (readFmtOut s).map fun f => (f.toNat : Int), (readIdOut s).map fun f => (f.toNat : Int)]
    ++ (List.range 6).map fun m => (readFOut s m).map BitVec.toInt

/-- D1 and D4. -/
theorem test_decode_valid_packets :
    after (exec .decode (withPacket 0x090e00d72d322735bc91#80)) rxReport =
      some [some 0, some 0, some 9, some 224, some 188, none, none, none, none] ∧
    after (exec .decode (withPacket 0x120d7fcb2f63279485de#80)) rxReport =
      some [some 0, some 1, some 2, some 215, some (-53), some 47, some 99, some 10132, some 133] := by decide

/-- D6, D7 and D8. -/
theorem test_decode_errors :
    after (exec .decode (withPacket 0x740000000000000000b7#80)) (fun t => (t.rx.rxErr, t.rx.outValid)) =
      some (3#3, false) ∧
    after (exec .decode (withPacket 0x090e00d72d322735bc90#80)) (fun t => (t.rx.rxErr, t.out.reports)) =
      some (1#3, [.checksum 0x91#8 0x90#8]) ∧
    after (exec .decode (withPacket 0x740000000000000000b6#80)) (fun t => t.rx.rxErr) = some 1#3 := by decide

/-- D3 and D11 as packet rows, run from reset. -/
theorem test_packet_rows :
    after (step (State.reset.withFetchWord 80 0x0f80000000000000ffc4)) rxReport =
      some [some 0, some 0, some 15, some (-2048), some 255, none, none, none, none] ∧
    after (step (State.reset.withFetchWord 80 0x190e00d72d322735bc4d)) rxReport =
      some [some 0, some 1, some 9, some 224, some 215, some 45, some 50, some 10037, some 188] := by decide

/-- S8 as a packet row. -/
theorem test_packet_row_reserved :
    after (exec (.pktReserved4to7 7#4 4#4 0#64 0xb7#8) State.reset) (fun t => (t.rx.rxErr, t.rx.outValid, t.rx.q)) =
      some (3#3, false, 0x740000000000000000b7#80) := by decide

/-- The scaled view of S1: 22.4 degrees and 4.88 volts. -/
theorem test_scaled_view :
    scaledValue { name := "", first := 8, width := 12, signed := true, scaledName := "", scale := 1 / 10, offset := 0 }
      224#32 = 224 / 10 ∧
    scaledValue { name := "", first := 64, width := 8, signed := false, scaledName := "", scale := 1 / 100, offset := 3 }
      188#32 = 488 / 100 := by
  constructor <;> norm_num [scaledValue, BitVec.toInt]

theorem test_render_hex : renderHex 0x090e00d72d322735bc91#80 = "090e00d72d322735bc91" := by decide

/-! ### COMPILE -/

/-- A state with operands of COMPILE, each written by the host. -/
def compileState (p : Packet) (n : Repeats) : State :=
  { State.reset with tx.p := p, tx.repeatsIn := n, tx.written := ⟨false, false, 0#6, true, 0b1111111111#10⟩ }

/-- K3: one copy; the last byte group and the end of the sequence. -/
theorem test_compile_one_copy :
    after (exec .compile (compileState 0x05f97000000000007804#80 1#8))
      (fun t => (t.tx.seqLen, t.tx.seqValid, (List.range 12).map fun k => readSeq t.tx.seq (76 + k))) =
      some (85#9, true, [some 2#3, some 2#3, some 2#3, some 2#3, some 2#3, some 3#3, some 2#3, some 2#3, some 4#3,
        some 7#3, none, none]) := by decide

/-- K4 and K5. -/
theorem test_compile_corner_cases :
    after (exec .compile (compileState 0#80 0#8)) (fun t => (t.tx.seq, t.tx.seqLen, t.tx.seqValid)) =
      some ([(0, 4#3), (1, 7#3)], 1#9, true) ∧
    after (exec .compile (compileState 0#80 5#8)) (fun t => (t.tx.seq, t.tx.txErr, t.tx.seqValid)) =
      some ([], 4#3, false) := by decide

/-! ### PLAY and the symbols -/

/-- A state with a hand-written sequence. -/
def sequenceState (m : SeqMem) (len : SeqIndex) : State :=
  { State.reset with tx.seq := m, tx.seqLen := len, tx.seqValid := true }

/-- Y2: one of each Omni symbol, `03247`. -/
def y2 : State := sequenceState [(0, 0#3), (1, 3#3), (2, 2#3), (3, 4#3), (4, 7#3)] 4#9

/-- Y2's sequence presented with PLAY. -/
def y2Play : State := { y2 with host.queue := [.operation 5#3] }

/-- Y2. -/
theorem test_play_y2 :
    after (core.run 5 y2Play) (fun t => (t.out.trace, t.tx.line, t.tx.seqPc, t.tx.txErr, t.tx.txBusy)) =
      some ([.line true, .delay 600, .line false, .delay 600, .line true, .delay 200, .line false, .delay 400,
        .line true, .delay 400, .line false, .delay 200, .line false, .delay 1250], false, 4#9, 0#3, false) := by decide

/-- The waveform of Y2: (1,600) (0,600) (1,200) (0,400) (1,400) (0,1450). -/
theorem test_waveform_y2 :
    waveform false [.line true, .delay 600, .line false, .delay 600, .line true, .delay 200, .line false, .delay 400,
      .line true, .delay 400, .line false, .delay 200, .line false, .delay 1250] =
      [(true, 600), (false, 600), (true, 200), (false, 400), (true, 400), (false, 1450)] := by decide

/-- Y3: `07347`, and Y6: `0527`, each with PLAY presented. -/
def y3Play : State :=
  { sequenceState [(0, 0#3), (1, 7#3), (2, 3#3), (3, 4#3), (4, 7#3)] 4#9 with host.queue := [.operation 5#3] }
def y6Play : State :=
  { sequenceState [(0, 0#3), (1, 5#3), (2, 2#3), (3, 7#3)] 3#9 with host.queue := [.operation 5#3] }

theorem test_play_y3 :
    after (core.run 3 y3Play) (fun t => (t.out.trace, t.tx.txErr, t.tx.seqPc, t.tx.txBusy, t.tx.line)) =
      some ([.line true, .delay 600, .line false, .delay 600, .abort 1], 5#3, 1#9, false, false) := by decide

theorem test_play_y6 :
    after (core.run 3 y6Play) (fun t => (t.tx.txErr, t.tx.seqPc)) = some (5#3, 1#9) := by decide

/-- Y5 (length 0) and Y10 (no valid sequence). -/
theorem test_play_y5_y10 :
    after (exec .play (sequenceState [(0, 7#3)] 0#9)) (fun t => (t.tx.txBusy, t.tx.txErr, t.out.trace)) =
      some (false, 0#3, []) ∧
    refusal (exec .play State.reset) = some .sequenceNotValid ∧
    refusal (exec .play (sequenceState [(0, 0#3)] 1#9)) = some .sequenceBroken := by decide

/-- A ZERO cut short by reset after 3 microseconds: the line goes low, the trace ends inside the delay (R262). -/
theorem test_reset_inside_a_delay :
    after (core.run 5 { sequenceState [(0, 2#3), (1, 7#3)] 1#9 with
      host.queue := [.operation 5#3, .tick, .tick, .tick, .reset] })
      (fun t => (t.out.trace, t.tx.line, t.tx.txBusy, t.tx.txErr, t.tx.phase, t.tx.timer)) =
      some ([.line true, .delay 3], false, false, 0#3, .between, 0#16) := by decide

/-- The two phases of ZERO under the microsecond view: the low phase begins when the timer reaches zero. -/
theorem test_ticks_change_phase :
    after (core.run 3 { sequenceState [(0, 2#3), (1, 7#3)] 1#9 with
      tx.txBusy := true, tx.phase := .high, tx.timer := 2#16, tx.line := true,
      out.trace := [.line true, .delay 398], host.queue := [.tick, .tick, .tick] })
      (fun t => (t.out.trace, t.tx.phase, t.tx.timer, t.tx.line)) =
      some ([.line true, .delay 400, .line false, .delay 1], .low, 199#16, false) := by decide

/-! ### MATCH -/

/-- The bits of a packet as a row. -/
def rowOf (p : Packet) : Row := (List.range 80).map (pbit p)

/-- The row `A` of the vectors. -/
def rowA : Row := rowOf 0x090e00d72d322735bc91#80

/-- A state with a capture, presented by the host. -/
def captureState (rows : List Row) : State :=
  { State.reset with host.capture := rows, host.captureWritten := true }

/-- M1 and M12. -/
theorem test_match_decodes :
    after (exec .matchRows (captureState [[true, false, true], rowA, rowA]))
      (fun t => (t.rx.mState, t.rx.matchRow, t.rx.matchLen, t.rx.q)) =
      some (4#3, 1, 80, 0x090e00d72d322735bc91#80) ∧
    after (exec .matchRows (captureState [rowA ++ [true], rowA ++ [true]]))
      (fun t => (t.rx.mState, t.rx.matchRow, t.rx.matchLen)) = some (4#3, 0, 81) := by decide +kernel

/-- M1 over a `Q` full of other bits: every one of its ten bytes is overwritten, and the run stays unmarked (R212, R218). -/
theorem test_match_overwrites_q :
    after (exec .matchRows { captureState [rowA, rowA] with rx.q := BitVec.allOnes 80, rx.qWritten := 0#10 })
      (fun t => (t.rx.q, t.rx.rxErr, t.rx.fmtOut, t.rx.idOut, t.out.runMarked)) =
      some (0x090e00d72d322735bc91#80, 0#3, 0#4, 9#4, false) := by decide +kernel

/-- M4, M6 and M11. -/
theorem test_match_fails :
    after (exec .matchRows (captureState [rowOf 0x090e10d72d322735bc91#80, rowOf 0x090e10d72d322735bc91#80]))
      (fun t => (t.rx.mState, t.rx.rxErr, t.out.reports)) = some (5#3, 1#3, [.checksum 0xb2#8 0x91#8]) ∧
    after (exec .matchRows (captureState [rowA])) (fun t => (t.rx.mState, t.rx.rxErr, t.rx.outValid)) =
      some (5#3, 2#3, false) ∧
    after (exec .matchRows (captureState [rowOf 0x740000000000000000b7#80, rowOf 0x740000000000000000b7#80]))
      (fun t => (t.rx.mState, t.rx.rxErr)) = some (5#3, 3#3) := by decide +kernel

/-- M9 and M15. -/
theorem test_match_lengths_and_order :
    after (exec .matchRows (captureState [rowA, rowA ++ [false]])) (fun t => t.rx.rxErr) = some 2#3 ∧
    after (exec .matchRows (captureState [rowOf 0x090e10d72d322735bc91#80, rowOf 0x090e10d72d322735bc91#80, rowA, rowA]))
      (fun t => t.rx.rxErr) = some 1#3 := by decide +kernel

/-! ### The host -/

/-- Program 5, steps 2 and 3: overflow, then PLAY is refused. -/
theorem test_overflow_then_play_refused :
    refusal (core.run 3 { compileState 0#80 4#8 with
      host.queue := [.writeRepeatsIn 5#8, .operation 4#3, .operation 5#3] }) = some .sequenceNotValid := by decide

/-- Host writes reach their registers and mark them as holding a value. -/
theorem test_host_writes :
    after (core.run 3 { State.reset with host.queue := [.writeFIn 1 7#32, .writeP 9 0xab#8, .writeSeq 3 2#3] })
      (fun t => (t.tx.fIn.f1, t.tx.written.fIn, t.tx.p, t.tx.written.p, readSeq t.tx.seq 3)) =
      some (7#32, 0b000010#6, 0xab#80, 0b1000000000#10, some 2#3) := by decide

theorem test_fetch_word_operations :
    refusal (step (State.reset.withFetchWord 8 7)) = some .reservedOperation ∧
    after (step ((compileState 0#80 0#8).withFetchWord 8 4)) (fun t => t.tx.seqLen) = some 1#9 ∧
    after (step ((captureState []).withFetchWord 8 6)) (fun t => t.rx.rxErr) = some 2#3 := by decide

/-- The operands of a format 0 ENCODE are there once the host wrote two slots beside the format and the id (R264). -/
theorem test_operands_written :
    operandsWritten .encode State.reset = false ∧
    after (core.run 4 { State.reset with host.queue :=
      [.writeFmtIn 0#32, .writeIdIn 5#32, .writeFIn 0 1#32, .writeFIn 1 2#32] }) (operandsWritten .encode) = some true := by
  decide

/-- Right after reset no operation but those that read nothing begins: each is turned away, the registers, the results and
the error codes stay as they were, and the run is marked (R248, R266). -/
theorem test_first_operation_after_reset :
    (∀ c, (c = 1#3 ∨ c = 2#3 ∨ c = 3#3 ∨ c = 4#3 ∨ c = 6#3) →
      exec (decodeWord (.operation c)) State.reset = .next { State.reset with out.runMarked := true }) ∧
    exec .opNone State.reset = .next State.reset := by
  refine ⟨?_, rfl⟩
  rintro c (rfl | rfl | rfl | rfl | rfl) <;> rfl

/-- One unwritten byte of `P` turns COMPILE away, its error register not even cleared; with all ten written it runs
(R173, R264, R266). -/
theorem test_one_unwritten_byte_turns_compile_away :
    after (exec .compile { compileState 0#80 1#8 with tx.written.p := 0b0111111111#10, tx.txErr := 5#3 })
      (fun t => (t.tx.seqLen, t.tx.seqValid, t.tx.txErr, t.out.runMarked)) = some (0#9, false, 5#3, true) ∧
    after (exec .compile (compileState 0#80 1#8)) (fun t => (t.tx.seqLen, t.out.runMarked)) = some (85#9, false) := by
  decide

/-- An empty run and an empty capture are operands, once the host presented them: "`length = 0` returns `init`" (R126),
"`NROWS = 0` is allowed" (R205), and mark nothing; after the reset event they are unwritten again (R264). -/
theorem test_empty_operands_are_operands :
    after (core.run 2 { State.reset with host.queue := [.presentRun [] 0x5a#8, .operation 1#3] })
      (fun t => (t.crc.out, t.out.runMarked)) = some (0x5a#8, false) ∧
    after (core.run 3 { State.reset with host.queue := [.presentRun [] 0x5a#8, .reset, .operation 1#3] })
      (fun t => (t.crc.outWritten, t.out.runMarked)) = some (false, true) ∧
    after (exec .matchRows (captureState [])) (fun t => (t.rx.rxErr, t.rx.mState, t.out.runMarked)) =
      some (2#3, 5#3, false) := by decide

/-- An unregistered format reads no slot of `F_IN`, format 0 reads two (R142, R143, R264). -/
theorem test_encode_reads_the_slots_of_its_layout :
    after (exec .encode { encodeState 7#32 4#32 FieldRegs.zeros with tx.written.fIn := 0#6 })
      (fun t => (t.tx.p, t.out.runMarked)) = some (0x740000000000000000b7#80, false) ∧
    after (exec .encode { encodeState 0#32 4#32 FieldRegs.zeros with tx.written.fIn := 0b000001#6 })
      (fun t => (t.tx.p, t.out.runMarked)) = some (0#80, true) := by decide

/-! ### Witnesses: concrete states that meet the hypotheses of the statements -/

/-- PLAY of Y2 running, at its second symbol. -/
def playing : State :=
  { y2 with tx.txBusy := true, tx.seqPc := 1#9, host.queue := [] }

/-- The same inside the high phase of that symbol. -/
def insideSymbol : State :=
  { playing with tx.phase := .high, tx.timer := 77#16, tx.line := true, host.queue := [.tick] }

/-- For `DecodeOfEncodeIsIdentity` and `DecodeOfBytesIsIdentity`: well-formed instructions. -/
theorem witness_wf_instructions :
    (Instr.pktReserved8to15 9#4 1#4 5#64 6#8).wf = true ∧ (Instr.pktFmt0 9#4 1#12 2#44 3#8 4#8).wf = true ∧
    Instr.wf .crc8 = true ∧ Instr.wf .sync = true := by decide

/-- For `StepRunsDecodedInstruction` and `ResetEventResetsTheBlock`: pending actions of each kind. -/
theorem witness_step_operation_packet_pass :
    { State.reset with host.queue := [HostAction.operation 3#3] }.host.queue = .operation 3#3 :: [] ∧
    { State.reset with host.queue := [HostAction.packet 5#80] }.host.queue = .packet 5#80 :: [] ∧
    { State.reset with host.queue := [HostAction.reset] }.host.queue = .reset :: [] ∧
    { playing with host.queue := [HostAction.pass] }.host.queue = .pass :: [] := by decide

/-- For `StepRunsDecodedInstruction`: a running PLAY between two symbols. -/
theorem witness_step_symbol :
    playing.host.queue = [] ∧ playing.tx.txBusy = true ∧ playing.tx.phase = .between ∧
    playing.tx.seqPc.toNat < playing.tx.seqLen.toNat ∧ playing.tx.seqPc.toNat < 338 ∧
    readSeq playing.tx.seq playing.tx.seqPc.toNat = some 3#3 := by decide

/-- For `FetchWordRunsNext`: words of both widths that the reader takes. -/
theorem witness_fetch_word :
    decodeTableWord 8 2 = some .encode ∧ (decodeTableWord 80 0xffffffffffffffffffff).isSome = true := by decide

/-- For `IdleBlockHoldsItsState`: the state after reset, and the same with a tick pending. -/
theorem witness_idle : State.reset.tx.txBusy = false ∧ State.reset.host.queue = [] ∧
    ({ State.reset with host.queue := [.tick, .pass] } : State).host.queue = .tick :: [.pass] := by decide

/-- For `EveryStepKeepsTheInvariant`, `NoFetchGoesWrong` and `SequencerAlwaysGoesOn`: states that meet the invariant while
PLAY runs, between symbols and inside one. -/
theorem witness_invariant : Safety.Inv playing ∧ Safety.Inv insideSymbol ∧ playing.host.queue = [] ∧
    (∃ t, step playing = .next t) ∧ (∃ t, step insideSymbol = .next t) := by
  refine ⟨⟨?_, ?_, ?_, ?_, captureFits_nil, ?_⟩, ⟨?_, ?_, ?_, ?_, captureFits_nil, ?_⟩, rfl, ⟨_, rfl⟩, ⟨_, rfl⟩⟩ <;>
    first
    | decide
    | (unfold playInv phaseInv resultInv; decide)

/-- For `Crc8LoadsThenStepsByteByByte`, `Crc8EqualsTheBitSerialCrc`, `CrcIsLinear` and `CrcTableIsInjective`. -/
theorem witness_crc8_runs :
    (runState [] 0#8).host.crcRun = [] ∧
    (runState sourceRun 0#8).host.crcRun = sourceRun.dropLast ++ [0xbc#8] ∧
    sourceRun.length = (List.replicate 9 (1#8 : Byte)).length ∧ crcTab 0xff#8 = crcTab 0xff#8 := by decide

/-- For `EncodePacksTheLayout`, `EncodeBuildsThePatternWord` and `CodecReadsAndWritesNothingElse`: an idle block with its
operands written; a layout is registered for format 0, none for format 7; packet bit 20 is in no field of format 0. -/
theorem witness_encode :
    (encodeState 0#32 9#32 FieldRegs.zeros).tx.txBusy = false ∧
    encodeOperandsWritten (encodeState 0#32 9#32 FieldRegs.zeros) = true ∧
    encodeOperandsWritten (encodeState 7#32 9#32 FieldRegs.zeros) = true ∧
    layout ((encodeState 0#32 9#32 FieldRegs.zeros).tx.fmtIn.setWidth 4) = some layoutFmt0 ∧
    layoutFmt0[1]? = some layoutFmt0[1] ∧ (∀ d ∈ layoutFmt0, 20 < d.first ∨ d.first + d.width ≤ 20) ∧
    layout ((encodeState 7#32 9#32 FieldRegs.zeros).tx.fmtIn.setWidth 4) = none :=
  ⟨rfl, by decide, by decide, rfl, rfl, by decide, rfl⟩

/-- For the statements about DECODE: any packet can stand in `Q`, all of it written. -/
theorem witness_q_written (q : Packet) : decodeOperandsWritten (withPacket q) = true ∧ (withPacket q).rx.q = q :=
  ⟨rfl, rfl⟩

/-- For `DecodeTestsChecksumThenFormatThenExtracts`, `DecodeReportsTheFirstFailedTest` and, with `witness_q_written`,
`CodecReadsAndWritesNothingElse`: one packet for each way out of DECODE, D7, D6 and D1. -/
theorem witness_decode_cases :
    packetCrc 0x090e00d72d322735bc90#80 ≠ storedCrc 0x090e00d72d322735bc90#80 ∧
    packetCrc 0x740000000000000000b7#80 = storedCrc 0x740000000000000000b7#80 ∧
    layout (fmtOf 0x740000000000000000b7#80) = none ∧ 2 ≤ (fmtOf 0x740000000000000000b7#80).toNat ∧
    packetCrc 0x090e00d72d322735bc91#80 = storedCrc 0x090e00d72d322735bc91#80 ∧
    layout (fmtOf 0x090e00d72d322735bc91#80) = some layoutFmt0 ∧ layoutFmt0[0]? = some layoutFmt0[0] :=
  ⟨by decide, by decide, rfl, by decide, by decide, rfl, rfl⟩

/-- For `PktFmt0Delivers`, `PktFmt1Delivers` and the three clauses of `ReservedPacketsRaise`: packets with their
own CRC. -/
theorem witness_packet_rows :
    packetCrc (pktFmt0Bits 9#4 0x0e0#12 0x0d72d322735#44 0xbc#8 0x91#8) = 0x91#8 ∧
    packetCrc (pktFmt1Bits 2#4 0x0d7#12 0xfcb#12 0x2f#8 0x63#8 0x2794#16 0x85#8 0xde#8) = 0xde#8 ∧
    packetCrc (pktReservedBits 7#4 4#4 0#64 0xb7#8) = 0xb7#8 ∧ fmtInRange 4 7 7#4 = true ∧
    packetCrc (pktReservedBits 15#4 15#4 0#64 0xdd#8) = 0xdd#8 ∧ fmtInRange 8 15 15#4 = true ∧
    packetCrc (pktReservedBits 2#4 0#4 0#64 (packetCrc (pktReservedBits 2#4 0#4 0#64 0#8))) =
      packetCrc (pktReservedBits 2#4 0#4 0#64 0#8) ∧ fmtInRange 2 3 2#4 = true := by decide +kernel

/-- For `PacketRowsAreDecodes` and `PacketRowsWithBadCrcRaiseChecksum`: D7 as a packet row, its CRC wrong. -/
theorem witness_packet_row_words :
    (Instr.pktFmt0 9#4 0x0e0#12 0x0d72d322735#44 0xbc#8 0x90#8).wf = true ∧
    encode (.pktFmt0 9#4 0x0e0#12 0x0d72d322735#44 0xbc#8 0x90#8) = .packet 0x090e00d72d322735bc90#80 := by decide

/-- For `RoundTripFormat0`: the extremes of the declared ranges. -/
theorem witness_round_trip_format0 :
    let s := encodeState 0#32 15#32 ⟨-2048#32, 255#32, 0#32, 0#32, 0#32, 0#32⟩
    s.tx.txBusy = false ∧ encodeOperandsWritten s = true ∧ s.tx.fmtIn = 0#32 ∧ s.tx.idIn.toNat < 16 ∧ -2048 ≤ s.tx.fIn.f0.toInt ∧
    s.tx.fIn.f0.toInt ≤ 2047 ∧ s.tx.fIn.f1.toNat < 256 := by decide

/-- For `RoundTripFormat1`: extremes of the declared ranges. -/
theorem witness_round_trip_format1 :
    let s := encodeState 1#32 15#32 ⟨2047#32, -2048#32, 255#32, 255#32, 65535#32, 255#32⟩
    s.tx.txBusy = false ∧ encodeOperandsWritten s = true ∧ s.tx.fmtIn = 1#32 ∧ s.tx.idIn.toNat < 16 ∧ -2048 ≤ s.tx.fIn.f0.toInt ∧
    s.tx.fIn.f0.toInt ≤ 2047 ∧ -2048 ≤ s.tx.fIn.f1.toInt ∧ s.tx.fIn.f1.toInt ≤ 2047 ∧ s.tx.fIn.f2.toNat < 256 ∧
    s.tx.fIn.f3.toNat < 256 ∧ s.tx.fIn.f4.toNat < 65536 ∧ s.tx.fIn.f5.toNat < 256 := by decide

/-- For `EverySingleBitFlipIsDetected` and `EveryDoubleBitFlipIsDetected`, with `witness_q_written`: X4, packet bit 19 of the source's packet flipped; and bits 0 and 71 flipped. -/
theorem witness_bit_flips :
    packetValid 0x090e00d72d322735bc91#80 = true ∧
    setPbit 0x090e00d72d322735bc91#80 19 (!pbit 0x090e00d72d322735bc91#80 19) = 0x090e10d72d322735bc91#80 ∧
    setPbit (setPbit 0x090e00d72d322735bc91#80 0 (!pbit 0x090e00d72d322735bc91#80 0)) 71
      (!pbit 0x090e00d72d322735bc91#80 71) = 0x890e00d72d322735bd91#80 := by decide

/-- For `CompileWritesTheBurst` and `CompileRejectsOverflow`: 4 copies fit, 5 do not. -/
theorem witness_compile :
    (compileState 0#80 4#8).tx.txBusy = false ∧ compileOperandsWritten (compileState 0#80 4#8) = true ∧
    (compileState 0#80 4#8).tx.repeatsIn.toNat = 4 ∧ 84 * 4 + 2 ≤ 338 ∧
    (compileState 0#80 5#8).tx.txBusy = false ∧ compileOperandsWritten (compileState 0#80 5#8) = true ∧
    (compileState 0#80 5#8).tx.repeatsIn.toNat = 5 ∧ 338 < 84 * 5 + 2 := by decide

/-- For `PlayStartsTheSequencer`, `PlayNeedsASoundSequence` and the first clause of
`LaunchesOutsideTheContractHaveNoEffect`. -/
theorem witness_play :
    y2Play.host.queue = [.operation 5#3] ∧ y2Play.tx.txBusy = false ∧ y2Play.tx.seqValid = true ∧
    Ref.sentinelRule y2Play ∧ playing.tx.txBusy = true ∧ State.reset.tx.seqValid = false := by
  unfold Ref.sentinelRule
  decide

/-- For `PlayNeedsASoundSequence`: one sequence for each way to break the sentinel rule, each refused: a length of 338, the
last one too long (337 is the longest that fits); a symbol where the sentinel belongs; entry 0 never written. -/
theorem test_broken_sequences_are_refused :
    (sequenceState [] 338#9).tx.seqLen.toNat = 337 + 1 ∧
    refusal (exec .play (sequenceState [] 338#9)) = some .sequenceBroken ∧
    refusal (exec .play (sequenceState [(0, 0#3), (1, 4#3)] 1#9)) = some .sequenceBroken ∧
    readSeq (sequenceState [(1, 7#3)] 1#9).tx.seq 0 = none ∧
    readSeq (sequenceState [(1, 7#3)] 1#9).tx.seq 1 = some 7#3 ∧
    refusal (exec .play (sequenceState [(1, 7#3)] 1#9)) = some .sequenceBroken := by decide

/-- For the other clauses of `LaunchesOutsideTheContractHaveNoEffect`: an idle block with one operand not written, a
`Q` without its last byte, and a step of a marked run. -/
theorem witness_unwritten_operands :
    let noSlot := { encodeState 0#32 4#32 FieldRegs.zeros with tx.written.fIn := 0b000001#6 }
    let noByte := { compileState 0#80 1#8 with tx.written.p := 0b0111111111#10 }
    let noQ := { withPacket 0#80 with rx.qWritten := 0b0111111111#10 }
    noSlot.tx.txBusy = false ∧ layout (noSlot.tx.fmtIn.setWidth 4) = some layoutFmt0 ∧ 1 < layoutFmt0.length ∧
    noSlot.tx.written.fIn.getLsbD 1 = false ∧ State.reset.tx.written.fmtIn = false ∧ State.reset.tx.written.idIn = false ∧
    noByte.tx.txBusy = false ∧ noByte.tx.written.p.getLsbD 9 = false ∧ State.reset.tx.written.repeatsIn = false ∧
    noQ.rx.qWritten.getLsbD 9 = false ∧ State.reset.host.runWritten = false ∧ State.reset.host.captureWritten = false ∧
    { State.reset with out.runMarked := true }.out.runMarked = true ∧
    (∃ t, step { State.reset with out.runMarked := true } = .next t) :=
  ⟨rfl, rfl, by decide, by decide, rfl, rfl, rfl, by decide, rfl, by decide, rfl, rfl, rfl, _, rfl⟩

/-- For the clauses of `LaunchesOutsideTheContractHaveNoEffect` about the step inside the contract: right after
reset each of the five operations would read an operand nothing wrote, and has no such step; presented operands have one
(R264, R266). -/
theorem test_contract_step :
    (∀ c, (c = 1#3 ∨ c = 2#3 ∨ c = 3#3 ∨ c = 4#3 ∨ c = 6#3) → Ref.readsUnwritten c State.reset) ∧
    contractStep { State.reset with host.queue := [.operation 3#3] } = none ∧
    (¬ Ref.readsUnwritten 1#3 (runState [] 0x5a#8) ∧ ¬ Ref.readsUnwritten 3#3 (withPacket 0#80)) ∧
    (contractStep { runState [] 0x5a#8 with host.queue := [.operation 1#3] }).map (fun t => t.crc.out) = some 0x5a#8 := by
  refine ⟨?_, rfl, ⟨by unfold Ref.readsUnwritten; simp [runState], by unfold Ref.readsUnwritten; simp [withPacket, Ref.withQ]; decide⟩, rfl⟩
  rintro c (rfl | rfl | rfl | rfl | rfl) <;> unfold Ref.readsUnwritten
  · exact .inl ⟨rfl, rfl⟩
  · exact .inr (.inl ⟨rfl, .inl rfl⟩)
  · exact .inr (.inr (.inl ⟨rfl, 0, by decide, rfl⟩))
  · exact .inr (.inr (.inr (.inl ⟨rfl, .inl rfl⟩)))
  · exact .inr (.inr (.inr (.inr ⟨rfl, rfl⟩)))

/-- For `PlayExecutesEverySymbolInOrder`, with `witness_play`: every entry of Y2 is played. -/
theorem witness_play_all_playable : ∀ i < y2Play.tx.seqLen.toNat, Ref.playable y2Play.tx.seq i := by
  intro i hi
  have h : i < 4 := hi
  have h' : i = 0 ∨ i = 1 ∨ i = 2 ∨ i = 3 := by omega
  rcases h' with rfl | rfl | rfl | rfl <;> exact ⟨_, rfl⟩

/-- For `PlayAbortsAtTheFirstBadEntry`: Y3 stops at its second entry. -/
theorem witness_play_bad_entry :
    y3Play.host.queue = [.operation 5#3] ∧ y3Play.tx.txBusy = false ∧ y3Play.tx.seqValid = true ∧
    Ref.sentinelRule y3Play ∧ 1 < y3Play.tx.seqLen.toNat ∧ (∀ j < 1, Ref.playable y3Play.tx.seq j) ∧
    ¬ Ref.playable y3Play.tx.seq 1 := by
  refine ⟨rfl, rfl, rfl, by unfold Ref.sentinelRule; decide, by decide, ?_, ?_⟩
  · intro j hj
    have h : j = 0 := by omega
    subst h
    exact ⟨_, rfl⟩
  · rintro ⟨t, ht⟩
    have h : (readSeq y3Play.tx.seq 1).bind timing = none := rfl
    rw [h] at ht
    cases ht

/-- For `CompiledBurstPlaysFullLength`: COMPILE and PLAY pending, 4 copies. -/
theorem witness_burst :
    let s := { compileState 0x05f97000000000007804#80 4#8 with host.queue := [.operation 4#3, .operation 5#3] }
    s.host.queue = [.operation 4#3, .operation 5#3] ∧ s.tx.txBusy = false ∧
    compileOperandsWritten s = true ∧ s.tx.repeatsIn.toNat = 4 := by decide

/-- A state between two symbols of a running PLAY meets the invariant if its data do: for the witnesses below. -/
theorem inv_of_playing (s : State) (h : s = { playing with host.queue := s.host.queue, tx.seqPc := s.tx.seqPc })
    (hp : s.tx.seqPc.toNat < 4) : Safety.Inv s := by
  have hi := witness_invariant.1
  rw [h]
  exact ⟨hi.1, hi.2.1, hi.2.2.1, hi.2.2.2.1, hi.2.2.2.2.1, fun _ => ⟨hp, (hi.2.2.2.2.2.1 rfl).2⟩, hi.2.2.2.2.2.2.1,
    hi.2.2.2.2.2.2.2⟩

/-- For `MicrosecondTicksEqualTheWholeSymbol`: the ONE of Y2, with its 600 ticks pending; with 250 of them and a pass; with
250 of them alone. -/
theorem witness_ticks :
    readSeq playing.tx.seq playing.tx.seqPc.toNat = some 3#3 ∧ timing 3#3 = some ⟨200#16, 400#16⟩ ∧
    playing.tx.txBusy = true ∧ playing.tx.phase = .between ∧
    max 1 ((200#16).toNat + (400#16).toNat) = 600 ∧ 0 < 250 ∧ 250 < (200#16).toNat + (400#16).toNat ∧
    (∀ q, Safety.Inv { playing with host.queue := q }) :=
  ⟨rfl, rfl, rfl, rfl, rfl, by decide, by decide, fun _ => inv_of_playing _ rfl (show 1 < 4 by decide)⟩

/-- For the last clause of `MicrosecondTicksEqualTheWholeSymbol`: Y3 running, a tick pending at its misplaced sentinel. -/
theorem witness_tick_aborts :
    let s := { y3Play with tx.txBusy := true, tx.seqPc := 1#9, host.queue := [.tick] }
    Safety.Inv s ∧ s.tx.txBusy = true ∧ s.tx.phase = .between ∧
    (readSeq s.tx.seq s.tx.seqPc.toNat).bind timing = none ∧ s.host.queue = .tick :: [] := by
  refine ⟨⟨by decide, by decide, by decide, by decide, captureFits_nil, ?_⟩, rfl, rfl, rfl, rfl⟩
  unfold playInv phaseInv resultInv
  decide

/-- The ZERO of one entry, 3 microseconds before the end of its low phase of 200, finished by a pass, ends PLAY (R189, R198). -/
theorem test_pass_finishes_a_symbol :
    after (step { sequenceState [(0, 2#3), (1, 7#3)] 1#9 with
      tx.txBusy := true, tx.phase := .low, tx.timer := 3#16, out.trace := [.line false, .delay 197], host.queue := [.pass] })
      (fun t => (t.out.trace, t.tx.seqPc, t.tx.txBusy, t.tx.phase)) =
      some ([.line false, .delay 200], 1#9, false, .between) := by decide

/-- For `OnlySymbolsWriteTheLine`: a SYNC played with the line high. -/
theorem witness_line_changes :
    after (exec .sync { State.reset with tx.line := true }) (fun t => t.tx.line) = some false := by decide

/-- For `MatchWithoutARepeatRaisesRowNotFound`: a capture of one row. -/
theorem witness_no_repeat (n : Nat) (r : Row) : ¬ Ref.repeatedAt (captureState [rowA]).host.capture n r := by
  rintro ⟨hn, _, _, m, hm, hr⟩
  have h1 : n < [rowA].length := (List.getElem?_eq_some_iff.mp hn).1
  have h2 : m < [rowA].length := (List.getElem?_eq_some_iff.mp hr).1
  simp at h1 h2
  omega

/-- For the statements about MATCH: any capture can be the one presented. -/
theorem witness_capture_written (rows : List Row) :
    matchOperandsWritten (captureState rows) = true ∧ (captureState rows).host.capture = rows := ⟨rfl, rfl⟩

/-- For `MatchTakesTheFirstRepeatedRow` and `MatchDependsOnTheCaptureAlone`: the capture `A`, `A`; row 0 is the first repeated row; nothing stands before it. -/
theorem witness_repeat :
    Ref.repeatedAt (captureState [rowA, rowA]).host.capture 0 rowA ∧
    (∀ n' r', n' < 0 → ¬ Ref.repeatedAt (captureState [rowA, rowA]).host.capture n' r') ∧
    (captureState [rowA, rowA]).host.capture =
      ({ y2 with host.capture := [rowA, rowA], host.captureWritten := true } : State).host.capture ∧
    matchOperandsWritten { y2 with host.capture := [rowA, rowA], host.captureWritten := true } = true := by
  refine ⟨⟨rfl, by decide, by decide, 1, by decide, rfl⟩, ?_, rfl, rfl⟩
  intro n' _ h
  exact absurd h (Nat.not_lt_zero n')

/-- For `DecodeAfterMatchChangesNothing` and `FailedMatchWritesNoResult`: a MATCH that decodes, one that fails. -/
theorem witness_match_decoded :
    after (exec .matchRows (captureState [rowA, rowA])) (fun t => (t.rx.outValid, t.rx.rxErr)) = some (true, 0#3) ∧
    after (exec .matchRows (captureState [rowA])) (fun t => t.rx.rxErr) = some 2#3 := by decide +kernel

/-- For `HostWritesWriteTheirRegister`: each write pending on an idle block, each presentation pending, and a write pending
while PLAY runs. -/
theorem witness_host_writes :
    (∀ a, ({ State.reset with host.queue := [a] } : State).host.queue = a :: [] ∧
      ({ State.reset with host.queue := [a] } : State).tx.txBusy = false) ∧
    ({ playing with host.queue := [.writeP 0 1#8] } : State).host.queue = .writeP 0 1#8 :: [] ∧
    playing.tx.txBusy = true := ⟨fun _ => ⟨rfl, rfl⟩, rfl, rfl⟩

/-- For both clauses of `HostWritesWriteTheirRegister` about a capture: the empty one fits, one row too many does not. -/
theorem witness_captures :
    captureFits [] = true ∧ captureFits (List.replicate (Config.nrowsMax + 1) []) = false := by
  refine ⟨captureFits_nil, ?_⟩
  rw [Bool.eq_false_iff, ne_eq, captureFits_iff]
  rintro ⟨h, -⟩
  simp at h

/-- For `ReceiveHalfWorksDuringPlay`. -/
theorem witness_receive_during_play :
    let s := { Ref.withQ 0#80 playing with host.runWritten := true, host.captureWritten := true }
    s.tx.txBusy = true ∧ operandsWritten .decode s = true ∧ operandsWritten .matchRows s = true ∧
    operandsWritten .crc8 s = true := by decide

/-- For `LineKeepsItsLevelOutsidePlay`: an idle block with MATCH pending, which the step runs. -/
theorem witness_idle_step :
    ({ captureState [] with host.queue := [.operation 6#3] } : State).tx.txBusy = false ∧
    (∀ rest, ({ captureState [] with host.queue := [.operation 6#3] } : State).host.queue ≠ .reset :: rest) ∧
    ∃ t, step { captureState [] with host.queue := [.operation 6#3] } = .next t := by
  refine ⟨rfl, ?_, ⟨_, rfl⟩⟩
  intro rest h
  simp at h

/-- For `PrematureSentinelEndsPlay`: PLAY of Y2 at its last symbol, the IM_GAP; and, for the last clause, one index
further. -/
theorem witness_play_at_end :
    (let s := { playing with tx.seqPc := 3#9 }
     Safety.Inv s ∧ s.host.queue = [] ∧ s.tx.txBusy = true ∧ s.tx.phase = .between ∧
     s.tx.seqPc.toNat + 1 = s.tx.seqLen.toNat ∧
     (readSeq s.tx.seq s.tx.seqPc.toNat).bind timing = some ⟨0#16, 1250#16⟩) ∧
    (let s := { playing with tx.seqPc := 4#9 }
     s.host.queue = [] ∧ s.tx.txBusy = true ∧ s.tx.phase = .between ∧ s.tx.seqPc = s.tx.seqLen) :=
  ⟨⟨inv_of_playing _ rfl (by decide), rfl, rfl, rfl, rfl, rfl⟩, rfl, rfl, rfl, rfl⟩

/-- For `AtMostOneErrorPerInstruction` and `NoInstructionChangesBothHalves`: an instruction that raises an error. -/
theorem witness_one_error :
    after (exec .noneSym playing) (fun t => (t.out.reports, t.tx.txErr)) = some ([.playbackSequencing 1], 5#3) := by
  decide

end Sys2Proof.Tests
end

/-!
PROOFS. COMPILE (42_compiler R166 to R169): the symbols of a burst by their index, what writing one leaves in the
sequence memory, and the two ways a COMPILE can end.
-/

namespace Sys2Proof.Machine

/-- Copy `c` of `n` copies of a list `l` stands at the indexes from `l.length * c` on. -/
theorem getElem?_flatten_replicate {α : Type} (l : List α) (n c j : Nat) (hc : c < n) (hj : j < l.length) :
    (List.replicate n l).flatten[l.length * c + j]? = l[j]? := by
  induction n generalizing c with
  | zero => omega
  | succ n ih =>
    rw [List.replicate_succ, List.flatten_cons]
    cases c with
    | zero => rw [Nat.mul_zero, Nat.zero_add, List.getElem?_append_left hj]
    | succ c =>
      have e : l.length * (c + 1) + j = l.length + (l.length * c + j) := by rw [Nat.mul_succ]; omega
      rw [e, List.getElem?_append_right (Nat.le_add_right _ _), Nat.add_sub_cancel_left, ih c (by omega)]

/-! ### The symbols of a burst -/

/-- The copies of a burst, its two last symbols left out, are `84n` symbols (30_encoding R106). -/
theorem copies_length (p : Packet) (n : Nat) : (List.replicate n (copySymbols p)).flatten.length = 84 * n := by
  simp [copySymbols_length, Nat.mul_comm]

/-- A copy begins with four SYNC (30_encoding R106). -/
theorem copySymbols_preamble (p : Packet) (j : Nat) (hj : j < 4) : (copySymbols p)[j]? = some codeSync := by
  have h : j < Config.preambleCount := hj
  rw [copySymbols, List.getElem?_append_left (by rwa [List.length_replicate]), List.getElem?_replicate_of_lt h]

/-- After its preamble a copy has one symbol per packet bit, packet bit 0 first (30_encoding R106). -/
theorem copySymbols_bit (p : Packet) (k : Nat) (hk : k < 80) :
    (copySymbols p)[4 + k]? = some (bitSymbol (pbit p k)) := by
  have h : k < Config.packetBits := hk
  rw [copySymbols, List.getElem?_append_right (by simp [Config.preambleCount])]
  simp [Config.preambleCount, h]

/-- Symbol `j` of copy `c` is symbol `84c + j` of the burst (30_encoding R106). -/
theorem burst_copy (p : Packet) (n c j : Nat) (hc : c < n) (hj : j < 84) :
    (burst p n)[84 * c + j]? = (copySymbols p)[j]? := by
  have hlt : 84 * c + j < (List.replicate n (copySymbols p)).flatten.length := by rw [copies_length]; omega
  have h := getElem?_flatten_replicate (copySymbols p) n c j hc
  rw [copySymbols_length] at h
  rw [burst, List.getElem?_append_left hlt, h hj]

/-- IM_GAP and NONE follow the last copy (30_encoding R106). -/
theorem burst_after_copies (p : Packet) (n i : Nat) : (burst p n)[84 * n + i]? = [codeImGap, codeNone][i]? := by
  rw [burst, List.getElem?_append_right (by rw [copies_length]; omega), copies_length, Nat.add_sub_cancel_left]

/-- A burst of `n` copies needs `84n + 2` entries (42_compiler R167, R169). -/
theorem burstEntries_eq (n : Nat) : burstEntries n = 84 * n + 2 := rfl

/-! ### A burst in the sequence memory -/

/-- The entries a written burst covers hold its symbols (42_compiler R166). -/
theorem readSeq_writeBurst (p : Packet) (n i : Nat) (m : SeqMem) (hi : i < 84 * n + 2) :
    readSeq (writeSeqRun (burst p n) 0 m) i = (burst p n)[i]? := by
  have h : i < 0 + (burst p n).length := by rw [burst_length, burstEntries_eq]; omega
  rw [readSeq_writeSeqRun, if_pos ⟨Nat.zero_le i, h⟩, Nat.sub_zero]

/-- The entries above a written burst keep what they held (42_compiler R169). -/
theorem readSeq_writeBurst_above (p : Packet) (n i : Nat) (m : SeqMem) (hi : 84 * n + 1 < i) :
    readSeq (writeSeqRun (burst p n) 0 m) i = readSeq m i := by
  have h : ¬ (0 ≤ i ∧ i < 0 + (burst p n).length) := by rw [burst_length, burstEntries_eq]; omega
  rw [readSeq_writeSeqRun, if_neg h]

/-! ### The two ends of a COMPILE -/

/-- A COMPILE the contract gives a meaning clears `TX_ERR` and then makes the overflow test (42_compiler R166). -/
theorem exec_compile_of_written (s : State) (hb : s.tx.txBusy = false) (hw : compileOperandsWritten s = true) :
    exec .compile s = .next (compileBurst s.tx.repeatsIn.toNat (beginTx s)) :=
  launchTx_of_written _ _ s hb hw

/-- A burst that fits in `CAP` entries is written (42_compiler R166). -/
theorem compileBurst_of_fits (n : Nat) (s : State) (h : 84 * n + 2 ≤ 338) : compileBurst n s = writeBurst n s :=
  if_neg (Nat.not_lt.mpr (by rw [burstEntries_eq]; exact h))

/-- A burst that does not fit raises SequenceOverflowError with `SEQ_VALID` cleared (42_compiler R167). -/
theorem compileBurst_of_overflow (n : Nat) (s : State) (h : 338 < 84 * n + 2) :
    compileBurst n s = raiseError (.sequenceOverflow (84 * n + 2) 338) { s with tx.seqValid := false } := by
  rw [← burstEntries_eq] at h ⊢
  exact if_pos h

/-- Settles O33: a burst that fits is read back symbol by symbol from the memory COMPILE wrote; one that does not is the
raise of SequenceOverflowError, which touches neither `SEQ` nor `SEQ_LEN`. -/
theorem compileWritesTheBurst : Obligations.CompileWritesTheBurst := by
  unfold Obligations.CompileWritesTheBurst
  constructor
  · intro s n hb hw hn hfit
    have hburst : ∀ i, i < 84 * n + 2 → readSeq (writeSeqRun (burst s.tx.p n) 0 s.tx.seq) i = (burst s.tx.p n)[i]? :=
      fun i => readSeq_writeBurst s.tx.p n i s.tx.seq
    refine ⟨writeSeqRun (burst s.tx.p n) 0 s.tx.seq, ?_, ?_, ?_, ?_, ?_, ?_⟩
    · rw [exec_compile_of_written s hb hw, hn, compileBurst_of_fits n _ hfit]
      rfl
    · intro c j hc hj
      rw [hburst _ (by omega), burst_copy _ n c j hc (by omega), copySymbols_preamble _ j hj]
      rfl
    · intro c k hc hk
      rw [hburst _ (by omega), Nat.add_assoc, burst_copy _ n c (4 + k) hc (by omega), copySymbols_bit _ k hk]
      rfl
    · exact (hburst _ (by omega)).trans (burst_after_copies _ n 0)
    · exact (hburst _ (by omega)).trans (burst_after_copies _ n 1)
    · exact fun i hi => readSeq_writeBurst_above _ n i _ hi
  · rintro s n hb hw rfl hover
    refine ⟨_, exec_compile_of_written s hb hw, ?_⟩
    rw [compileBurst_of_overflow _ _ hover]
    exact ⟨rfl, rfl, rfl, rfl⟩

end Sys2Proof.Machine

/-!
PROOFS. The Packet Codec (41_codec R140, R163): the fields of a packet ENCODE builds, the one way a written ENCODE ends,
and the independence of DECODE from the transmit half.
-/

namespace Sys2Proof.Machine

/-! ### Bits and slices of a packet -/

/-- A packet bit is the field of one bit at its place (00_scope R14, R15). -/
theorem pbit_eq_field (p : Packet) (k : Nat) (h : k < 80) : pbit p k = (field p k 1).getLsbD 0 :=
  (field_getLsbD p k 1 0 (by omega) (by omega)).symm

/-- A slice of a field is the field at that place of the packet (00_scope R15). -/
theorem extractLsb'_field (p : Packet) (s w a n : Nat) (h : s + w ≤ 80) (ha : a + n ≤ w) :
    (field p s w).extractLsb' (w - a - n) n = field p (s + a) n := by
  apply BitVec.eq_of_getLsbD_eq
  intro j hj
  have e : s + (w - 1 - (w - a - n + j)) = s + a + (n - 1 - j) := by omega
  rw [BitVec.getLsbD_extractLsb', decide_eq_true hj, Bool.true_and, field_getLsbD _ s w _ h (by omega),
    field_getLsbD _ (s + a) n j (by omega) hj, e]

/-- The high nibble of byte 0 is the format selector, the low nibble the device id (41_codec R150). -/
theorem fmtOf_idOf_of_byteAt_zero (p : Packet) (fmt id : BitVec 4) (h : byteAt p 0 = fmt ++ id) :
    fmtOf p = fmt ∧ idOf p = id := by
  have hf : field p 0 8 = fmt ++ id := h
  have h0 := extractLsb'_field p 0 8 0 4 (by omega) (by omega)
  have h4 := extractLsb'_field p 0 8 4 4 (by omega) (by omega)
  rw [hf] at h0 h4
  exact ⟨h0.symm.trans BitVec.extractLsb'_append_eq_left, h4.symm.trans BitVec.extractLsb'_append_eq_right⟩

/-! ### The fields of a layout -/

/-- A field lies in the payload, packet bits 8 to 71, and fits in a field register (30_encoding R91, 10_state R28). -/
abbrev inPayload (d : FieldDesc) : Prop := 8 ≤ d.first ∧ d.first + d.width ≤ 72 ∧ d.width ≤ 32

/-- Packet bits `s` to `s+w-1` hold no bit of a field. -/
abbrev apartFrom (s w : Nat) (d : FieldDesc) : Prop := s + w ≤ d.first ∨ d.first + d.width ≤ s

/-- The fields of a registered layout lie in the payload (30_encoding R98, R99). -/
theorem layout_inPayload (fmt : BitVec 4) (l : List FieldDesc) (h : layout fmt = some l) : ∀ d ∈ l, inPayload d := by
  unfold layout at h
  split at h <;> cases h <;> decide

/-- No two fields of a registered layout share a bit (30_encoding R98, R99). -/
theorem layout_pairwise_apart (fmt : BitVec 4) (l : List FieldDesc) (h : layout fmt = some l) :
    l.Pairwise fun d e => apartFrom d.first d.width e := by
  unfold layout at h
  split at h <;> cases h <;> decide

/-- Packing fields leaves what lies apart from all of them (41_codec R136, R140). -/
theorem field_packFields_of_apart (f : FieldRegs) (l : List FieldDesc) (n s w : Nat) (p : Packet)
    (hl : ∀ d ∈ l, inPayload d) (h : s + w ≤ 80) (ha : ∀ d ∈ l, apartFrom s w d) :
    field (packFields f l n p) s w = field p s w := by
  induction l generalizing n p with
  | nil => rfl
  | cons d ds ih =>
    obtain ⟨⟨_, hend, hwidth⟩, hds⟩ := List.forall_mem_cons.mp hl
    obtain ⟨had, hads⟩ := List.forall_mem_cons.mp ha
    rw [packFields, ih (n + 1) _ hds hads]
    exact field_packField_of_disjoint p d.first d.width s w _ (by omega) hwidth h had

/-- Each field packed reads back as its slot truncated to its width (41_codec R140, R141). -/
theorem field_packFields (f : FieldRegs) (l : List FieldDesc) (n m : Nat) (p : Packet) (d : FieldDesc)
    (hl : ∀ d ∈ l, inPayload d) (hp : l.Pairwise fun d e => apartFrom d.first d.width e) (hm : l[m]? = some d) :
    field (packFields f l n p) d.first d.width = (slot f (n + m)).setWidth d.width := by
  induction l generalizing n m p with
  | nil => cases hm
  | cons e es ih =>
    obtain ⟨⟨_, hend, hwidth⟩, hes⟩ := List.forall_mem_cons.mp hl
    obtain ⟨hapart, hpes⟩ := List.pairwise_cons.mp hp
    cases m with
    | zero =>
      cases hm
      rw [packFields, field_packFields_of_apart f es _ _ _ _ hes (by omega) hapart]
      exact field_packField p _ _ _ (by omega) hwidth
    | succ m =>
      rw [packFields, ih (n + 1) m _ hes hpes hm, Nat.add_right_comm, Nat.add_assoc]

/-! ### The packet ENCODE builds -/

/-- The header ENCODE packs into a packet of zeros (41_codec R140). -/
def encodeHeader (fmt id : Word) : Packet := setByte 0#80 0 (fmt.setWidth 4 ++ id.setWidth 4)

/-- With a layout registered the fields follow the header (41_codec R140). -/
theorem encodeBody_of_layout (fmt id : Word) (f : FieldRegs) (l : List FieldDesc)
    (h : layout (fmt.setWidth 4) = some l) : encodeBody fmt id f = packFields f l 0 (encodeHeader fmt id) := by
  simp only [encodeBody, h, encodeHeader]

/-- With no layout registered the header is all (41_codec R143). -/
theorem encodeBody_of_no_layout (fmt id : Word) (f : FieldRegs) (h : layout (fmt.setWidth 4) = none) :
    encodeBody fmt id f = encodeHeader fmt id := by
  simp only [encodeBody, h, encodeHeader]

/-- What lies after the header byte is zero before the fields are packed (41_codec R140). -/
theorem field_encodeHeader (fmt id : Word) (s w : Nat) (hs : 8 ≤ s) (h : s + w ≤ 80) :
    field (encodeHeader fmt id) s w = 0#w := by
  rw [encodeHeader, field_setByte_of_disjoint _ 0 s w _ (by omega) h (.inr hs), field_zero]

/-- The CRC stamp leaves every field before byte 9 (40_crc8 R127). -/
theorem field_encodePacket (fmt id : Word) (f : FieldRegs) (s w : Nat) (h : s + w ≤ 72) :
    field (encodePacket fmt id f) s w = field (encodeBody fmt id f) s w :=
  field_setByte_of_disjoint _ 9 s w _ (by omega) (by omega) (.inl h)

/-- Byte 0 is the low four bits of the format, then of the id, whatever the layout (41_codec R140). -/
theorem byteAt_zero_encodePacket (fmt id : Word) (f : FieldRegs) :
    byteAt (encodePacket fmt id f) 0 = fmt.setWidth 4 ++ id.setWidth 4 := by
  have hheader : field (encodeHeader fmt id) 0 8 = fmt.setWidth 4 ++ id.setWidth 4 :=
    byteAt_setByte _ 0 _ (by omega)
  rw [byteAt_eq_field, field_encodePacket _ _ _ _ _ (by omega), ← hheader]
  cases hl : layout (fmt.setWidth 4) with
  | none => rw [encodeBody_of_no_layout _ _ _ hl]
  | some l =>
    have hin := layout_inPayload _ _ hl
    rw [encodeBody_of_layout _ _ _ l hl]
    exact field_packFields_of_apart f l 0 0 8 _ hin (by omega) fun d hd => .inl (hin d hd).1

/-- The stamped byte is the CRC of the packet it stands in (40_crc8 R127, 41_codec R140). -/
theorem storedCrc_encodePacket (fmt id : Word) (f : FieldRegs) :
    storedCrc (encodePacket fmt id f) = packetCrc (encodePacket fmt id f) := by
  have hrun : packetCrc (encodePacket fmt id f) = packetCrc (encodeBody fmt id f) :=
    congrArg (crc8 · Config.crcInit) (crcRunOf_setByte_nine _ _)
  rw [hrun]
  exact byteAt_setByte _ 9 _ (by omega)

/-- Each field of the layout is its slot truncated to its width (41_codec R140, R141). -/
theorem field_encodePacket_of_layout (fmt id : Word) (f : FieldRegs) (l : List FieldDesc) (m : Nat) (d : FieldDesc)
    (hl : layout (fmt.setWidth 4) = some l) (hm : l[m]? = some d) :
    field (encodePacket fmt id f) d.first d.width = (slot f m).setWidth d.width := by
  have hin := layout_inPayload _ _ hl
  have hend : d.first + d.width ≤ 72 := (hin d (List.mem_of_getElem? hm)).2.1
  rw [field_encodePacket _ _ _ _ _ hend, encodeBody_of_layout _ _ _ l hl,
    field_packFields f l 0 m _ d hin (layout_pairwise_apart _ _ hl) hm, Nat.zero_add]

/-- A payload bit in no field of the layout is 0 (41_codec R140). -/
theorem pbit_encodePacket_of_apart (fmt id : Word) (f : FieldRegs) (l : List FieldDesc) (k : Nat)
    (hl : layout (fmt.setWidth 4) = some l) (h8 : 8 ≤ k) (h72 : k < 72)
    (ha : ∀ d ∈ l, k < d.first ∨ d.first + d.width ≤ k) : pbit (encodePacket fmt id f) k = false := by
  rw [pbit_eq_field _ k (by omega), field_encodePacket _ _ _ _ _ (by omega), encodeBody_of_layout _ _ _ l hl,
    field_packFields_of_apart f l 0 k 1 _ (layout_inPayload _ _ hl) (by omega) ha,
    field_encodeHeader _ _ _ _ h8 (by omega), BitVec.getLsbD_zero]

/-- An unregistered format has an empty payload (41_codec R143). -/
theorem payload_encodePacket_of_no_layout (fmt id : Word) (f : FieldRegs) (h : layout (fmt.setWidth 4) = none) :
    field (encodePacket fmt id f) 8 64 = 0#64 := by
  rw [field_encodePacket _ _ _ _ _ (by omega), encodeBody_of_no_layout _ _ _ h,
    field_encodeHeader _ _ _ _ (by omega) (by omega)]

/-! ### ENCODE -/

/-- An ENCODE the contract gives a meaning clears `TX_ERR` and puts the packet of its operands in `P`
(41_codec R140). -/
theorem exec_encode_of_written (s : State) (hb : s.tx.txBusy = false) (hw : encodeOperandsWritten s = true) :
    exec .encode s = .next (putPacket (encodePacket s.tx.fmtIn s.tx.idIn s.tx.fIn) (beginTx s)) :=
  launchTx_of_written _ _ s hb hw

/-- Settles O19: the packet put in `P` is the stamped one, whose header, fields and zeros are those of the packing. -/
theorem encodePacksTheLayout : Obligations.EncodePacksTheLayout := by
  unfold Obligations.EncodePacksTheLayout
  intro s hb hw
  obtain ⟨hfmt, hid⟩ :=
    fmtOf_idOf_of_byteAt_zero _ _ _ (byteAt_zero_encodePacket s.tx.fmtIn s.tx.idIn s.tx.fIn)
  refine ⟨encodePacket s.tx.fmtIn s.tx.idIn s.tx.fIn, BitVec.allOnes 10, _, exec_encode_of_written s hb hw, hfmt, hid,
    storedCrc_encodePacket _ _ _, fun l hl => ⟨?_, ?_⟩, payload_encodePacket_of_no_layout _ _ _⟩
  · exact fun m d hm => field_encodePacket_of_layout _ _ _ l m d hl hm
  · exact fun k h8 h72 ha => pbit_encodePacket_of_apart _ _ _ l k hl h8 h72 ha

/-! ### What does not look at the transmit half -/

/-- An effect on the state that neither reads nor writes the transmit half: with another one it does the same and leaves
it (41_codec R163). -/
def IgnoresTx (f : State → State) : Prop := ∀ (s : State) (tx : TxHalf), f { s with tx := tx } = { f s with tx := tx }

/-- An effect that ignores the transmit half leaves it as it was. -/
theorem IgnoresTx.tx_eq {f : State → State} (h : IgnoresTx f) (s : State) : (f s).tx = s.tx := by
  have e := congrArg State.tx (h s s.tx)
  exact e

/-- An error of the receive half is raised without the transmit half (60_exceptions R236). -/
theorem raiseError_ignoresTx (e : ErrorInfo) (h : errorOfTx e = false) : IgnoresTx (raiseError e) := by
  intro s tx
  simp only [raiseError, h]

/-- The acceptance of a packet by its layout ignores the transmit half, delivered or refused (41_codec R148, R151). -/
theorem acceptByLayout_ignoresTx : IgnoresTx acceptByLayout := by
  intro s tx
  unfold acceptByLayout
  cases layout (fmtOf s.rx.q) with
  | some l => rfl
  | none => exact raiseError_ignoresTx _ rfl s tx

/-- The checksum test adds nothing to what its acceptance reads and writes of the transmit half (41_codec R149). -/
theorem checkedThen_ignoresTx (accept : State → State) (h : IgnoresTx accept) : IgnoresTx (checkedThen accept) := by
  intro s tx
  by_cases hcrc : packetCrc s.rx.q = storedCrc s.rx.q
  · rw [checkedThen_of_match accept s hcrc, checkedThen_of_match accept { s with tx := tx } hcrc]
    exact h (computeQCrc (beginRx s)) tx
  · rw [checkedThen_of_mismatch accept s hcrc, checkedThen_of_mismatch accept { s with tx := tx } hcrc]
    rfl

/-! ### What adds no event to the trace -/

/-- The acceptance of a packet by its layout adds no event to the trace (41_codec R163). -/
@[simp] theorem acceptByLayout_out_trace (s : State) : (acceptByLayout s).out.trace = s.out.trace := by
  unfold acceptByLayout
  cases layout (fmtOf s.rx.q) with
  | some l => rfl
  | none => exact raiseError_out_trace _ s

/-- The checksum test adds no event to the trace where its acceptance adds none (41_codec R163). -/
theorem checkedThen_out_trace (accept : State → State) (h : ∀ u, (accept u).out.trace = u.out.trace) (s : State) :
    (checkedThen accept s).out.trace = s.out.trace := by
  by_cases hcrc : packetCrc s.rx.q = storedCrc s.rx.q
  · rw [checkedThen_of_match accept s hcrc, h]
    rfl
  · rw [checkedThen_of_mismatch accept s hcrc]
    rfl

/-! ### The codec and the rest of the block -/

/-- Settles O23: ENCODE is one update that names neither `SEQ`, `LINE` nor the receive half; DECODE ignores the transmit
half on each of its three ways out. -/
theorem codecReadsAndWritesNothingElse : Obligations.CodecReadsAndWritesNothingElse := by
  unfold Obligations.CodecReadsAndWritesNothingElse
  constructor
  · intro s m b rx hb hw
    exact ⟨_, exec_encode_of_written s hb hw, rfl, rfl, rfl, rfl,
      exec_encode_of_written { s with tx.seq := m, tx.line := b, rx := rx } hb hw⟩
  · intro s tx hw
    have hignores := checkedThen_ignoresTx acceptByLayout acceptByLayout_ignoresTx
    refine ⟨_, execDecode_of_written s hw, hignores.tx_eq s,
      checkedThen_out_trace acceptByLayout acceptByLayout_out_trace s, ?_⟩
    rw [← hignores s tx]
    exact execDecode_of_written { s with tx := tx } hw

end Sys2Proof.Machine

/-!
PROOFS. The symbols of PLAY (43_sequencer R185 to R194): what a whole symbol of given durations leaves on the line and in
the trace, from its code on.
-/

namespace Sys2Proof.Machine

/-! ### The two phases of a symbol -/

/-- The phases of a symbol change the line and the trace and nothing else: each phase that is not skipped adds its two
events, and the last one sets the level (43_sequencer R194). -/
theorem execSymbol_eq (t : SymbolTiming) (s : State) :
    execSymbol t s =
      { s with tx.line := Ref.symbolLevel t s.tx.line, out.trace := s.out.trace ++ Ref.symbolEvents t } := by
  unfold execSymbol highPhase lowPhase Ref.symbolLevel Ref.symbolEvents
  by_cases hhigh : t.high = 0#16 <;> by_cases hlow : t.low = 0#16 <;> simp [hhigh, hlow, setLine, delayUs]

/-- A whole symbol with a low phase leaves the line low, whatever the level before (43_sequencer R194). -/
theorem playSymbol_tx_line_of_low (t : SymbolTiming) (s : State) (h : t.low ≠ 0#16) :
    (playSymbol t s).tx.line = false := by
  rw [playSymbol, completeSymbol_tx_line, execSymbol_eq]
  exact if_neg h

/-- A whole symbol raises no error (43_sequencer R194). -/
theorem playSymbol_tx_txErr (t : SymbolTiming) (s : State) : (playSymbol t s).tx.txErr = s.tx.txErr := by
  rw [playSymbol, completeSymbol_tx_txErr, execSymbol_eq]

/-- Going on to the next entry adds no event to those of the phases (43_sequencer R184, R194). -/
theorem playSymbol_out_trace (t : SymbolTiming) (s : State) :
    (playSymbol t s).out.trace = s.out.trace ++ Ref.symbolEvents t := by
  rw [playSymbol, completeSymbol_out, execSymbol_eq]

/-! ### From the code to the line -/

/-- A code whose timing has a low phase completes in every state, with the events of its timing, the line low and no
error (43_sequencer R185, R194). -/
theorem exec_symbol_drives_line (c : SymCode) (t : SymbolTiming) (ht : timing c = some t) (hlow : t.low ≠ 0#16)
    (s : State) : ∃ u, exec (decodeWord (.symbol c)) s = .next u ∧ u.tx.line = false ∧ u.tx.txErr = s.tx.txErr ∧
      u.out.trace = s.out.trace ++ Ref.symbolEvents t :=
  ⟨playSymbol t s, exec_symbol_of_timing c t ht s, playSymbol_tx_line_of_low t s hlow, playSymbol_tx_txErr t s,
    playSymbol_out_trace t s⟩

/-- Settles O38: each of the four codes has a timing with a low phase, and `symbolEvents` of it is the list stated. -/
theorem symbolsDriveTheLine : Obligations.SymbolsDriveTheLine := by
  unfold Obligations.SymbolsDriveTheLine
  refine ⟨⟨rfl, rfl, rfl, rfl⟩, ?sync, ?zero, ?one, ?imGap⟩
  case sync => exact exec_symbol_drives_line 0b000#3 timingSync rfl (by decide)
  case zero => exact exec_symbol_drives_line 0b010#3 timingZero rfl (by decide)
  case one => exact exec_symbol_drives_line 0b011#3 timingOne rfl (by decide)
  case imGap => exact exec_symbol_drives_line 0b100#3 timingImGap rfl (by decide)

end Sys2Proof.Machine

/-!
PROOFS. MATCH as a function of the capture alone (44_matcher R218): what the host reads after a MATCH, what a found row
fixes besides, and each step of the operation on two states that agree so far.
-/

namespace Sys2Proof.Machine

/-! ### What the host reads -/

/-- Two states report the same of the receive half: `RX_ERR`, `M_STATE`, `OUT_VALID` and the readable results
(10_state R31, 44_matcher R218). -/
structure SameReport (t t' : State) : Prop where
  rxErr : t.rx.rxErr = t'.rx.rxErr
  mState : t.rx.mState = t'.rx.mState
  outValid : t.rx.outValid = t'.rx.outValid
  fmtOut : readFmtOut t = readFmtOut t'
  idOut : readIdOut t = readIdOut t'
  nFieldsOut : readNFieldsOut t = readNFieldsOut t'
  fOut : ∀ m, readFOut t m = readFOut t' m

/-- Two states also agree on the packet of a found row and on which row that is (44_matcher R212, R218). -/
structure SameFound (t t' : State) : Prop extends SameReport t t' where
  q : t.rx.q = t'.rx.q
  matchRow : t.rx.matchRow = t'.rx.matchRow
  matchLen : t.rx.matchLen = t'.rx.matchLen

/-- While `OUT_VALID` is 0 no slot of `F_OUT` has a value to read (10_state R31). -/
theorem readFOut_of_invalid (s : State) (m : Nat) (h : s.rx.outValid = false) : readFOut s m = none := by
  simp [readFOut, whenValid, h]

/-- After a delivery the slots of `F_OUT` read as the values delivered, the slots beyond them as none: nothing of the old
`F_OUT` is readable (10_state R31, 41_codec R152). -/
theorem readFOut_deliver (fmt id : BitVec 4) (vs : List Word) (s : State) (m : Nat) (h : vs.length ≤ 6) :
    readFOut (deliver fmt id vs s) m = vs[m]? := by
  have hn : (BitVec.ofNat 3 vs.length).toNat = vs.length := by
    rw [BitVec.toNat_ofNat]
    omega
  simp only [readFOut, whenValid, deliver_rx_nFieldsOut, deliver_rx_outValid, deliver_rx_fOut, hn, if_true]
  by_cases hm : m < vs.length
  · rw [if_pos hm, slot_putSlots vs 0 m s.rx.fOut (by omega) (by omega), if_pos (by omega)]
    simp [hm]
  · rw [if_neg hm, List.getElem?_eq_none (by omega)]

/-! ### The steps of MATCH on two states that agree -/

/-- MATCH begins with the same report in every state: no error, Searching, and nothing valid to read
(44_matcher R206, R216). -/
theorem matchBegin_sameReport (s s' : State) : SameReport (matchBegin s) (matchBegin s') :=
  ⟨rfl, rfl, rfl, rfl, rfl, rfl, fun m =>
    (readFOut_of_invalid (matchBegin s) m rfl).trans (readFOut_of_invalid (matchBegin s') m rfl).symm⟩

/-- A change of `M_STATE` keeps two reports the same (44_matcher R216). -/
theorem SameReport.setMState_same {s s' : State} (h : SameReport s s') (v : BitVec 3) :
    SameReport (setMState v s) (setMState v s') :=
  ⟨h.rxErr, rfl, h.outValid, h.fmtOut, h.idOut, h.nFieldsOut, h.fOut⟩

/-- An error raised in both states keeps two reports the same (60_exceptions R236). -/
theorem SameReport.raiseError_same {s s' : State} (h : SameReport s s') (e : ErrorInfo) :
    SameReport (raiseError e s) (raiseError e s') := by
  unfold raiseError
  cases errorOfTx e with
  | true => exact ⟨h.rxErr, h.mState, h.outValid, h.fmtOut, h.idOut, h.nFieldsOut, h.fOut⟩
  | false => exact ⟨rfl, h.mState, h.outValid, h.fmtOut, h.idOut, h.nFieldsOut, h.fOut⟩

/-- An early exit of MATCH keeps two reports the same (44_matcher R217). -/
theorem SameReport.matchFail_same {s s' : State} (h : SameReport s s') (e : ErrorInfo) :
    SameReport (matchFail e s) (matchFail e s') :=
  (h.setMState_same mFailed).raiseError_same e

/-- Two states that report the same agree on the packet as well once an eligible row is found and packed: nothing of their
old `Q` is left (44_matcher R209, R212). -/
theorem SameReport.matchPack_same {s s' : State} (h : SameReport s s') (n : Nat) (r : Row) (hr : 80 ≤ r.length) :
    SameFound (matchPack r (matchRowFound n r s)) (matchPack r (matchRowFound n r s')) :=
  { h.setMState_same mRowMatched with
    q := packRow_forgets r s.rx.q s'.rx.q hr
    matchRow := rfl
    matchLen := rfl }

/-- A change of `M_STATE` keeps the agreement on the found row (44_matcher R216). -/
theorem SameFound.setMState_same {s s' : State} (h : SameFound s s') (v : BitVec 3) :
    SameFound (setMState v s) (setMState v s') :=
  ⟨h.toSameReport.setMState_same v, h.q, h.matchRow, h.matchLen⟩

/-- The computation of the packet's CRC keeps the agreement on the found row (44_matcher R213). -/
theorem SameFound.computeQCrc_same {s s' : State} (h : SameFound s s') :
    SameFound (computeQCrc s) (computeQCrc s') :=
  ⟨⟨h.rxErr, h.mState, h.outValid, h.fmtOut, h.idOut, h.nFieldsOut, h.fOut⟩, h.q, h.matchRow, h.matchLen⟩

/-- An early exit of MATCH keeps the agreement on the found row (44_matcher R217). -/
theorem SameFound.matchFail_same {s s' : State} (h : SameFound s s') (e : ErrorInfo) :
    SameFound (matchFail e s) (matchFail e s') where
  toSameReport := h.toSameReport.matchFail_same e
  q := by simp [matchFail, h.q]
  matchRow := by simp [matchFail, h.matchRow]
  matchLen := by simp [matchFail, h.matchLen]

/-- The same packet read by the same layout delivers the same results, whatever the result registers held
(44_matcher R215). -/
theorem SameFound.extract_same {s s' : State} (h : SameFound s s') (l : List FieldDesc) (hl : l.length ≤ 6) :
    SameFound (extract l s) (extract l s') := by
  have hlen (q : Packet) : (unpackFields q l).length ≤ 6 := by simpa [unpackFields] using hl
  have hfOut (m : Nat) : readFOut (extract l s) m = readFOut (extract l s') m := by
    rw [extract, extract, readFOut_deliver _ _ _ _ _ (hlen _), readFOut_deliver _ _ _ _ _ (hlen _), h.q]
  exact ⟨⟨h.rxErr, h.mState, rfl, congrArg (fun q => some (fmtOf q)) h.q, congrArg (fun q => some (idOf q)) h.q,
    by simp [readNFieldsOut, whenValid, extract, unpackFields], hfOut⟩, h.q, h.matchRow, h.matchLen⟩

/-- The dispatch on the packet's format keeps the agreement, with a layout and without (44_matcher R214, R215). -/
theorem SameFound.matchDispatch_same {s s' : State} (h : SameFound s s') :
    SameFound (matchDispatch s) (matchDispatch s') := by
  unfold matchDispatch
  rw [← h.q]
  cases hl : layout (fmtOf s.rx.q) with
  | some l =>
    exact ((h.setMState_same mFormatDispatched).extract_same l (layout_length_le _ l hl)).setMState_same mDecoded
  | none => exact h.matchFail_same _

/-- The checksum test and what follows keep the agreement, whichever way the test ends (44_matcher R213). -/
theorem SameFound.matchCheck_same {s s' : State} (h : SameFound s s') : SameFound (matchCheck s) (matchCheck s') := by
  have hcrc := h.computeQCrc_same
  simp only [matchCheck, ← hcrc.q]
  split
  · exact (hcrc.setMState_same mChecksumValidated).matchDispatch_same
  · exact hcrc.matchFail_same _

/-! ### MATCH -/

/-- A row the search takes has the 80 bits of a packet (44_matcher R207). -/
theorem length_of_searchRows_some (rows : List Row) (n : Nat) (r : Row) (h : searchRows rows = some (n, r)) :
    80 ≤ r.length := by
  obtain ⟨_, _, _, hrep, _⟩ := searchFrom_some rows rows 0 n r h
  simp only [repeated, eligible, Bool.and_eq_true, decide_eq_true_eq] at hrep
  obtain ⟨⟨hmin, _⟩, _⟩ := hrep
  exact hmin

/-- MATCH searches what the host presents: its beginning leaves that as it was (44_matcher R205). -/
@[simp] theorem matchBegin_host (s : State) : (matchBegin s).host = s.host := rfl

/-- MATCH of a capture without a repeated row (44_matcher R210). -/
theorem matchCapture_of_none (s : State) (h : searchRows s.host.capture = none) :
    matchCapture s = matchFail .rowNotFound (matchBegin s) := by
  simp only [matchCapture, matchBegin_host, h]

/-- MATCH of a capture with a repeated row goes on with the first one (44_matcher R206, R211). -/
theorem matchCapture_of_some (s : State) (n : Nat) (r : Row) (h : searchRows s.host.capture = some (n, r)) :
    matchCapture s = matchCheck (matchPack r (matchRowFound n r (matchBegin s))) := by
  simp only [matchCapture, matchBegin_host, h]

/-- Settles O50: the search sees the capture alone; without a row both runs fail alike from the same beginning, and with
one every step keeps the agreement that packing the row sets up. -/
theorem matchDependsOnTheCaptureAlone : Obligations.MatchDependsOnTheCaptureAlone := by
  unfold Obligations.MatchDependsOnTheCaptureAlone
  intro s s' hw hw' hcap
  refine ⟨_, _, execMatchRows_of_written s hw, execMatchRows_of_written s' hw', ?_⟩
  have hbegin := matchBegin_sameReport s s'
  cases hrow : searchRows s.host.capture with
  | none =>
    rw [matchCapture_of_none s hrow, matchCapture_of_none s' (hcap ▸ hrow)]
    have h := hbegin.matchFail_same .rowNotFound
    exact ⟨h.rxErr, h.mState, h.outValid, fun hfound => absurd rfl hfound, h.fmtOut, h.idOut, h.nFieldsOut, h.fOut⟩
  | some found =>
    obtain ⟨n, r⟩ := found
    rw [matchCapture_of_some s n r hrow, matchCapture_of_some s' n r (hcap ▸ hrow)]
    have hpack := hbegin.matchPack_same n r (length_of_searchRows_some s.host.capture n r hrow)
    have h := hpack.matchCheck_same
    exact ⟨h.rxErr, h.mState, h.outValid, fun _ => ⟨h.q, h.matchRow, h.matchLen⟩, h.fmtOut, h.idOut, h.nFieldsOut,
      h.fOut⟩

end Sys2Proof.Machine

/-!
PROOFS. The encodings (30_encoding R91, R98, R99, R103, R105, R109, R119): the decoder on the word of each packet row,
a packet as the word of its fields, and the bytes of a word.
-/

namespace Sys2Proof

open Sys2Proof.Machine

/-! ### The rows of the packet encoding -/

/-- The selector of a packet row whose range begins at 2 or later is neither 0 nor 1 (30_encoding R103). -/
theorem fmt_ne_of_fmtInRange (lo hi : Nat) (fmt : BitVec 4) (h : fmtInRange lo hi fmt = true) (hlo : 2 ≤ lo) :
    fmt ≠ 0#4 ∧ fmt ≠ 1#4 := by
  simp only [fmtInRange, Bool.and_eq_true, decide_eq_true_eq] at h
  constructor <;> rintro rfl <;> simp at h <;> omega

/-- Two rows of the reserved formats share no selector (30_encoding R119). -/
theorem fmtInRange_eq_false_of_lt (lo hi lo' hi' : Nat) (fmt : BitVec 4) (h : fmtInRange lo hi fmt = true)
    (hlt : hi' < lo) : fmtInRange lo' hi' fmt = false := by
  simp only [fmtInRange, Bool.and_eq_true, decide_eq_true_eq, Bool.and_eq_false_iff, decide_eq_false_iff_not] at h ⊢
  omega

/-- A selector that is no other row's is 8 to 15: the rows are exhaustive (30_encoding R119). -/
theorem fmtInRange_eight_of_ne (fmt : BitVec 4) (h0 : fmt ≠ 0#4) (h1 : fmt ≠ 1#4) (h2 : fmtInRange 2 3 fmt ≠ true)
    (h4 : fmtInRange 4 7 fmt ≠ true) : fmtInRange 8 15 fmt = true := by
  revert fmt
  decide

/-- The decoder on a format 0 word (30_encoding R98). -/
theorem decodePacket_pktFmt0Bits (id : BitVec 4) (t : BitVec 12) (r : BitVec 44) (v c : Byte) :
    decodePacket (pktFmt0Bits id t r v c) = .pktFmt0 id t r v c := by
  have h := field_pktFmt0Bits id t r v c
  simp only [field] at h
  simp [decodePacket, h]

/-- The decoder on a format 1 word (30_encoding R99). -/
theorem decodePacket_pktFmt1Bits (id : BitVec 4) (t1 t2 : BitVec 12) (s1 s2 : Byte) (p : BitVec 16) (v c : Byte) :
    decodePacket (pktFmt1Bits id t1 t2 s1 s2 p v c) = .pktFmt1 id t1 t2 s1 s2 p v c := by
  have h := field_pktFmt1Bits id t1 t2 s1 s2 p v c
  simp only [field] at h
  simp [decodePacket, h]

/-- The decoder on the word of a reserved format: its selector names the row (30_encoding R103). -/
theorem decodePacket_pktReservedBits (fmt id : BitVec 4) (payload : BitVec 64) (c : Byte)
    (h0 : fmt ≠ 0#4) (h1 : fmt ≠ 1#4) :
    decodePacket (pktReservedBits fmt id payload c) =
      if fmtInRange 2 3 fmt then .pktReserved2to3 fmt id payload c
      else if fmtInRange 4 7 fmt then .pktReserved4to7 fmt id payload c
      else .pktReserved8to15 fmt id payload c := by
  have h := field_pktReservedBits fmt id payload c
  simp only [field] at h
  simp [decodePacket, h, h0, h1]

/-! ### A packet is the word of its fields -/

/-- A packet with selector 0 is the format 0 word of its fields (30_encoding R98). -/
theorem pktFmt0Bits_of_fields (p : Packet) (h : field p 0 4 = 0#4) :
    pktFmt0Bits (field p 4 4) (field p 8 12) (field p 20 44) (field p 64 8) (field p 72 8) = p := by
  have hf := field_pktFmt0Bits (field p 4 4) (field p 8 12) (field p 20 44) (field p 64 8) (field p 72 8)
  refine packet_ext_fields [(0, 4), (4, 4), (8, 12), (20, 44), (64, 8), (72, 8)] ?_ (by simp) (by simp [hf, h])
  intro k hk
  simp
  omega

/-- A packet with selector 1 is the format 1 word of its fields (30_encoding R99). -/
theorem pktFmt1Bits_of_fields (p : Packet) (h : field p 0 4 = 1#4) :
    pktFmt1Bits (field p 4 4) (field p 8 12) (field p 20 12) (field p 32 8) (field p 40 8) (field p 48 16)
      (field p 64 8) (field p 72 8) = p := by
  have hf := field_pktFmt1Bits (field p 4 4) (field p 8 12) (field p 20 12) (field p 32 8) (field p 40 8)
    (field p 48 16) (field p 64 8) (field p 72 8)
  refine packet_ext_fields [(0, 4), (4, 4), (8, 12), (20, 12), (32, 8), (40, 8), (48, 16), (64, 8), (72, 8)] ?_
    (by simp) (by simp [hf, h])
  intro k hk
  simp
  omega

/-- Every packet is selector, id, payload and CRC (30_encoding R91). -/
theorem pktReservedBits_of_fields (p : Packet) :
    pktReservedBits (field p 0 4) (field p 4 4) (field p 8 64) (field p 72 8) = p := by
  have hf := field_pktReservedBits (field p 0 4) (field p 4 4) (field p 8 64) (field p 72 8)
  refine packet_ext_fields [(0, 4), (4, 4), (8, 64), (72, 8)] ?_ (by simp) (by simp [hf])
  intro k hk
  simp
  omega

/-- What the decoder answers for a packet is well formed and has the packet as its word (30_encoding R119). -/
theorem encode_decodePacket (p : Packet) :
    encode (decodePacket p) = .packet p ∧ (decodePacket p).wf = true := by
  simp only [decodePacket]
  split_ifs with h0 h1 h2 h4
  · exact ⟨congrArg _ (pktFmt0Bits_of_fields p h0), rfl⟩
  · exact ⟨congrArg _ (pktFmt1Bits_of_fields p h1), rfl⟩
  · exact ⟨congrArg _ (pktReservedBits_of_fields p), h2⟩
  · exact ⟨congrArg _ (pktReservedBits_of_fields p), h4⟩
  · exact ⟨congrArg _ (pktReservedBits_of_fields p), fmtInRange_eight_of_ne _ h0 h1 h2 h4⟩

/-- Settles O1: the codes by evaluation, each packet row by the fields of its word. -/
theorem decodeOfEncodeIsIdentity : Obligations.DecodeOfEncodeIsIdentity := by
  unfold Obligations.DecodeOfEncodeIsIdentity
  intro i hwf
  cases i
  case pktFmt0 id t r v c => exact decodePacket_pktFmt0Bits id t r v c
  case pktFmt1 id t1 t2 s1 s2 p v c => exact decodePacket_pktFmt1Bits id t1 t2 s1 s2 p v c
  case pktReserved2to3 fmt id payload c =>
    have hr : fmtInRange 2 3 fmt = true := hwf
    obtain ⟨h0, h1⟩ := fmt_ne_of_fmtInRange 2 3 fmt hr (by omega)
    exact (decodePacket_pktReservedBits fmt id payload c h0 h1).trans (if_pos hr)
  case pktReserved4to7 fmt id payload c =>
    have hr : fmtInRange 4 7 fmt = true := hwf
    obtain ⟨h0, h1⟩ := fmt_ne_of_fmtInRange 4 7 fmt hr (by omega)
    have h2 := fmtInRange_eq_false_of_lt 4 7 2 3 fmt hr (by omega)
    refine (decodePacket_pktReservedBits fmt id payload c h0 h1).trans ?_
    simp [h2, hr]
  case pktReserved8to15 fmt id payload c =>
    have hr : fmtInRange 8 15 fmt = true := hwf
    obtain ⟨h0, h1⟩ := fmt_ne_of_fmtInRange 8 15 fmt hr (by omega)
    have h2 := fmtInRange_eq_false_of_lt 8 15 2 3 fmt hr (by omega)
    have h4 := fmtInRange_eq_false_of_lt 8 15 4 7 fmt hr (by omega)
    refine (decodePacket_pktReservedBits fmt id payload c h0 h1).trans ?_
    simp [h2, h4]
  all_goals rfl

/-- Settles O2: the eight codes of each code space by evaluation, a packet by its fields. -/
theorem encodeOfDecodeIsIdentity : Obligations.EncodeOfDecodeIsIdentity := by
  unfold Obligations.EncodeOfDecodeIsIdentity
  intro w
  cases w with
  | operation c =>
    revert c
    decide
  | symbol c =>
    revert c
    decide
  | packet p => exact encode_decodePacket p

/-! ### The bytes of a word -/

/-- The encoding a word belongs to (30_encoding R119). -/
def FetchWord.space : FetchWord → Space
  | .operation _ => .operation
  | .symbol _ => .symbol
  | .packet _ => .packet

/-- The encoding of an instruction is that of its word. -/
theorem encodingOf_eq_space (i : Instr) : encodingOf i = (encode i).space := by
  unfold encodingOf
  cases encode i <;> rfl

/-- One byte more, shifted in below what was read, moves the view of the packet on by eight bits (00_scope R14). -/
theorem shiftRight_append_packetByte (p : Packet) (n : Nat) (h : n < 10) :
    (p >>> (80 - 8 * n) <<< 8) ||| (packetByte p n).setWidth 80 = p >>> (80 - 8 * (n + 1)) := by
  apply BitVec.eq_of_getLsbD_eq
  intro i hi
  have hbase : 80 - 8 * n - 8 = 80 - 8 * (n + 1) := by omega
  simp only [packetByte, packetSlice, BitVec.getLsbD_or, BitVec.getLsbD_shiftLeft, BitVec.getLsbD_ushiftRight,
    BitVec.getLsbD_setWidth, BitVec.getLsbD_extractLsb', hbase]
  by_cases h8 : i < 8
  · simp [h8, hi]
  · have e : 80 - 8 * n + (i - 8) = 80 - 8 * (n + 1) + i := by omega
    simp [h8, hi, e]

/-- After its first `n` bytes the reader holds the first `8n` bits of the packet (00_scope R14). -/
theorem packetOfBytes_of_first (p : Packet) (n : Nat) (h : n ≤ 10) :
    packetOfBytes ((List.range n).map (packetByte p)) = p >>> (80 - 8 * n) := by
  induction n with
  | zero =>
    apply BitVec.eq_of_toNat_eq
    have := p.isLt
    simp [packetOfBytes, Nat.shiftRight_eq_div_pow]
    omega
  | succ n ih =>
    rw [← shiftRight_append_packetByte p n (by omega), ← ih (by omega), List.range_succ, List.map_append]
    simp [packetOfBytes]

/-- The ten bytes of a packet are read back as the packet (00_scope R14). -/
theorem packetOfBytes_wordBytes (p : Packet) : packetOfBytes (wordBytes (.packet p)) = p := by
  have h := packetOfBytes_of_first p 10 (by omega)
  rwa [show p >>> (80 - 8 * 10) = p by simp] at h

/-- The bytes of a word decode, in its encoding, to what the word decodes to (00_scope R14; log 6). -/
theorem decodeBytes_wordBytes (w : FetchWord) : decodeBytes w.space (wordBytes w) = .ok (decodeWord w) := by
  cases w with
  | operation c =>
    revert c
    decide
  | symbol c =>
    revert c
    decide
  | packet p =>
    have hlen : (wordBytes (.packet p)).length = Config.packetBytes := by simp [wordBytes]
    simp only [FetchWord.space, decodeBytes, hlen, if_true, packetOfBytes_wordBytes]

/-- Settles O3: the bytes decode as the word does, and the word as O1 says. -/
theorem decodeOfBytesIsIdentity : Obligations.DecodeOfBytesIsIdentity := by
  unfold Obligations.DecodeOfBytesIsIdentity
  intro i hwf
  rw [encodingOf_eq_space, decodeBytes_wordBytes, decodeOfEncodeIsIdentity i hwf]

/-- Settles O4, by evaluation of the decoder on the seven words. -/
theorem sampleWordsDecode : Obligations.SampleWordsDecode := by
  unfold Obligations.SampleWordsDecode
  decide

end Sys2Proof

/-!
PROOFS. The step by who moves next (00_scope R23): the host's first pending action or the sequencer, what each host
write does, the idle block, and reset (70_reset_and_hazards R260 to R263, R271).
-/

namespace Sys2Proof.Machine

/-! ### Who moves next -/

/-- The outcome of a turn: its instruction run, or what is settled already. -/
def Turn.outcome : Turn → Host.Outcome State Fault Refusal
  | .run i t => exec i t
  | .settled o => o

/-- A step is the outcome of the next turn. -/
theorem step_eq_outcome (s : State) : step s = (nextTurn s).outcome := by
  unfold step
  cases nextTurn s <;> rfl

/-- With an action pending, the step is what that action does to the state without it (log 4). -/
theorem step_of_action (s : State) (a : HostAction) (rest : List HostAction) (h : s.host.queue = a :: rest) :
    step s = (hostTurn a (dropAction rest s)).outcome := by
  rw [step_eq_outcome, nextTurn, h]

/-- With nothing pending, the step is the sequencer's (log 4). -/
theorem step_of_empty_queue (s : State) (h : s.host.queue = []) : step s = (sequencerTurn s).outcome := by
  rw [step_eq_outcome, nextTurn, h]

/-- Idle, the sequencer does nothing on its turn (60_exceptions R254). -/
theorem sequencerTurn_of_idle (s : State) (h : s.tx.txBusy = false) : sequencerTurn s = .settled (.next s) := by
  simp [sequencerTurn, h]

/-- Idle, the sequencer does nothing in a microsecond (60_exceptions R254). -/
theorem sequencerTick_of_idle (s : State) (h : s.tx.txBusy = false) : sequencerTick s = .next s := by
  simp [sequencerTick, h]

/-- Settles O5: a presented word is a `run` turn by definition, a symbol by what the sequencer fetches. -/
theorem stepRunsDecodedInstruction : Obligations.StepRunsDecodedInstruction := by
  unfold Obligations.StepRunsDecodedInstruction
  refine ⟨?operation, ?packet, ?nothing, ?pass⟩
  case operation => exact fun s c rest hq => step_of_action s _ rest hq
  case packet => exact fun s p rest hq => step_of_action s _ rest hq
  case nothing =>
    intro s c hq hb hp hl hcap hr
    rw [step_of_empty_queue s hq, sequencerTurn_of_symbol s c hb hp hl hcap hr]
    rfl
  case pass =>
    intro s c rest hq hb hp hl hcap hr
    have hturn : hostTurn .pass (dropAction rest s) = _ :=
      sequencerTurn_of_symbol (dropAction rest s) c hb hp hl hcap hr
    rw [step_of_action s _ rest hq, hturn]
    rfl

/-- A pushed action makes the next turn, in the state it was pushed on (log 5). -/
theorem step_pushAction (a : HostAction) (s : State) : step (pushAction a s) = (hostTurn a s).outcome :=
  step_of_action (pushAction a s) a s.host.queue rfl

/-- A table word is never read as a symbol (log 6). -/
theorem tableWord_ne_symbol (nbits w : Nat) (c : SymCode) : tableWord nbits w ≠ some (.symbol c) := by
  unfold tableWord
  split_ifs <;> simp

/-- The reader of table words answers what the word decodes to (log 6). -/
theorem decodeTableWord_of_tableWord (nbits w : Nat) (word : FetchWord) (h : tableWord nbits w = some word) :
    decodeTableWord nbits w = some (decodeWord word) := by
  have hdec := decodeBytes_wordBytes word
  unfold decodeTableWord
  cases word <;> simp only [FetchWord.space] at hdec <;> simp only [h, hdec, Except.toOption]

/-- Settles O6: the reader of table words decodes the very word `withFetchWord` has the host present. -/
theorem fetchWordRunsNext : Obligations.FetchWordRunsNext := by
  unfold Obligations.FetchWordRunsNext
  intro s nbits w i hread
  cases hw : tableWord nbits w with
  | none => simp [decodeTableWord, hw] at hread
  | some word =>
    rw [decodeTableWord_of_tableWord nbits w word hw, Option.some.injEq] at hread
    subst hread
    unfold State.withFetchWord
    rw [hw]
    cases word with
    | operation c => exact step_pushAction (.operation c) s
    | symbol c => exact absurd hw (tableWord_ne_symbol nbits w c)
    | packet p => exact step_pushAction (.packet p) s

/-- Settles O7: the turns of an idle block's sequencer. -/
theorem idleBlockHoldsItsState : Obligations.IdleBlockHoldsItsState := by
  unfold Obligations.IdleBlockHoldsItsState
  constructor
  · intro s hb hq
    rw [step_of_empty_queue s hq, sequencerTurn_of_idle s hb]
    rfl
  · rintro s a rest hb hq (rfl | rfl)
    · rw [step_of_action s _ rest hq, hostTurn, sequencerTurn_of_idle (dropAction rest s) hb]
      rfl
    · rw [step_of_action s _ rest hq, hostTurn, sequencerTick_of_idle (dropAction rest s) hb]
      rfl

/-! ### Reset -/

/-- Settles O8: the values of `State.reset`, read off. -/
theorem resetLeavesTheGivenValues : Obligations.ResetLeavesTheGivenValues := by
  unfold Obligations.ResetLeavesTheGivenValues
  refine ⟨rfl, rfl, rfl, rfl, rfl, rfl, rfl, rfl, rfl, rfl, rfl, fun i => rfl, rfl, rfl, rfl, rfl, rfl, rfl, rfl⟩

/-- Settles O9: the reset action is settled by `resetEvent`, which keeps the pending actions and the outputs. -/
theorem resetEventResetsTheBlock : Obligations.ResetEventResetsTheBlock := by
  unfold Obligations.ResetEventResetsTheBlock
  exact fun s rest hq => step_of_action s _ rest hq

/-! ### The host's writes -/

/-- A write of a transmit register succeeds while no PLAY runs (10_state R43). -/
theorem txWrite_of_idle (s : State) (tx : TxHalf) (h : s.tx.txBusy = false) :
    txWrite s tx = .next { s with tx := tx } := by
  simp [txWrite, h]

/-- A write of a transmit register is refused while PLAY runs (70_reset_and_hazards R271). -/
theorem txWrite_of_busy (s : State) (tx : TxHalf) (h : s.tx.txBusy = true) : txWrite s tx = .refused .txBusy := by
  simp [txWrite, h]

/-- A pending action that writes a transmit register gives it its value while no PLAY runs (10_state R43). -/
theorem step_of_txWrite (s : State) (a : HostAction) (rest : List HostAction) (tx : TxHalf)
    (ha : hostTurn a (dropAction rest s) = .settled (txWrite (dropAction rest s) tx))
    (hq : s.host.queue = a :: rest) (hb : s.tx.txBusy = false) :
    step s = .next { dropAction rest s with tx := tx } := by
  rw [step_of_action s a rest hq, ha]
  exact txWrite_of_idle (dropAction rest s) tx hb

/-- Byte `m` of a packet after byte `i` was written (20_memory R67). -/
theorem byteAt_setByte_eq (p : Packet) (i m : Nat) (b : Byte) (hi : i < 10) (hm : m < 10) :
    byteAt (setByte p i b) m = if m = i then b else byteAt p m := by
  split_ifs with h
  · subst h
    exact byteAt_setByte p m b hm
  · exact byteAt_setByte_of_ne p i m b hi hm (Ne.symm h)

/-- Settles O58: each action is the write of its register on the state without the action; the indexed ones by the read
laws of slots, bytes, marks and entries. -/
theorem hostWritesWriteTheirRegister : Obligations.HostWritesWriteTheirRegister := by
  unfold Obligations.HostWritesWriteTheirRegister
  refine ⟨?transmit, ?receive, ?busy⟩
  case transmit =>
    intro s rest hb
    refine ⟨?_, ?_, ?_, ?_, ?_, ?_, ?_, ?_⟩
    · exact fun v hq => step_of_txWrite s _ rest _ rfl hq hb
    · exact fun v hq => step_of_txWrite s _ rest _ rfl hq hb
    · exact fun v hq => step_of_txWrite s _ rest _ rfl hq hb
    · exact fun i v hq => ⟨_, _, step_of_txWrite s _ rest _ rfl hq hb,
        fun m hm => slot_setSlot s.tx.fIn i.val m v i.isLt hm,
        fun m hm => getLsbD_or_markBit s.tx.written.fIn i.val m hm⟩
    · exact fun i b hq => ⟨_, _, step_of_txWrite s _ rest _ rfl hq hb,
        fun m hm => byteAt_setByte_eq s.tx.p i.val m b i.isLt hm,
        fun m hm => getLsbD_or_markBit s.tx.written.p i.val m hm⟩
    · exact fun i c hq => ⟨_, step_of_txWrite s _ rest _ rfl hq hb, fun m => readSeq_writeSeq s.tx.seq i.val m c⟩
    · exact fun v hq => step_of_txWrite s _ rest _ rfl hq hb
    · exact fun b hq => step_of_txWrite s _ rest _ rfl hq hb
  case receive =>
    intro s rest
    refine ⟨?_, ?_, ?_⟩
    · exact fun i b hq => ⟨_, _, step_of_action s _ rest hq,
        fun m hm => byteAt_setByte_eq s.rx.q i.val m b i.isLt hm,
        fun m hm => getLsbD_or_markBit s.rx.qWritten i.val m hm⟩
    · exact fun bytes init hq => step_of_action s _ rest hq
    · exact fun rows hq => ⟨fun hfits => (step_of_action s _ rest hq).trans (if_pos hfits),
        fun hbig => (step_of_action s _ rest hq).trans (if_neg (by simp [hbig]))⟩
  case busy =>
    rintro s a rest hq hb
      (⟨v, rfl⟩ | ⟨v, rfl⟩ | ⟨i, v, rfl⟩ | ⟨v, rfl⟩ | ⟨i, b, rfl⟩ | ⟨i, c, rfl⟩ | ⟨v, rfl⟩ | ⟨b, rfl⟩)
    all_goals exact (step_of_action s _ rest hq).trans (txWrite_of_busy (dropAction rest s) _ hb)

end Sys2Proof.Machine

/-!
PROOFS. The Checksum Engine (40_crc8 R121 to R131): the table as a linear permutation, the CRC of a run as the bit-serial
one, linearity, and the zero residue of valid packets.
-/

namespace Sys2Proof.Machine

/-! ### The table -/

/-- Only the index 0 has the entry 0 (40_crc8 R122). -/
theorem eq_zero_of_crcTab_eq_zero (x : Byte) (h : crcTab x = 0#8) : x = 0#8 := by
  revert x
  decide

/-- Two indexes with one entry are the same: their XOR has the entry 0 (40_crc8 R122, R130). -/
theorem crcTab_injective (a b : Byte) (h : crcTab a = crcTab b) : a = b := by
  have hxor : crcTab (a ^^^ b) = 0#8 := by rw [crcTab_xor, h, BitVec.xor_self]
  exact BitVec.xor_eq_zero_iff.mp (eq_zero_of_crcTab_eq_zero _ hxor)

/-- A step of the engine gives 0 exactly when the byte is the remainder (40_crc8 R125). -/
theorem crcByte_eq_zero_iff (r b : Byte) : crcByte r b = 0#8 ↔ r = b := by
  constructor
  · exact fun h => BitVec.xor_eq_zero_iff.mp (eq_zero_of_crcTab_eq_zero _ h)
  · rintro rfl
    rw [crcByte, BitVec.xor_self, crcTab_zero]

/-- Settles O18: the table is linear and has a single zero. -/
theorem crcTableIsInjective : Obligations.CrcTableIsInjective := by
  unfold Obligations.CrcTableIsInjective
  exact crcTab_injective

/-! ### The CRC of a run -/

/-- The CRC by the table is the bit-serial CRC (40_crc8 R121, R125). -/
theorem serialCrc_eq_crc8 (bs : List Byte) (r : Byte) : Ref.serialCrc bs r = crc8 bs r := by
  induction bs generalizing r with
  | nil => rfl
  | cons b bs ih => rw [Ref.serialCrc, ih, ← crcTab_eq_crcConstructed, crc8_cons, crcByte]

/-- Settles O15: the engine takes the CRC by the table, which is the bit-serial one. -/
theorem crc8EqualsTheBitSerialCrc : Obligations.Crc8EqualsTheBitSerialCrc := by
  unfold Obligations.Crc8EqualsTheBitSerialCrc
  intro s hw
  rw [serialCrc_eq_crc8]
  exact execCrc8_of_written s hw

/-- Settles O14: the fold of the engine on the empty run and on a run one byte longer. -/
theorem crc8LoadsThenStepsByteByByte : Obligations.Crc8LoadsThenStepsByteByByte := by
  unfold Obligations.Crc8LoadsThenStepsByteByByte
  refine ⟨?_, ?_, fun r b => crcTab_eq_crcConstructed _⟩
  · intro s hw hrun
    refine ⟨_, execCrc8_of_written s hw, ?_⟩
    rw [hrun]
    rfl
  · intro s bs b hw hrun
    refine ⟨_, _, execCrc8_of_written { s with host.crcRun := bs } hw, execCrc8_of_written s hw, ?_⟩
    rw [hrun, crc8_append]
    rfl

/-- Settles O17, by induction on the two runs together: each step is linear. -/
theorem crcIsLinear : Obligations.CrcIsLinear := by
  unfold Obligations.CrcIsLinear
  intro as
  induction as with
  | nil =>
    intro bs i j hlen
    cases List.length_eq_zero_iff.mp hlen.symm
    rfl
  | cons a as ih =>
    intro bs i j hlen
    cases bs with
    | nil => cases hlen
    | cons b bs =>
      have hstep : crcByte (i ^^^ j) (a ^^^ b) = crcByte i a ^^^ crcByte j b := by
        rw [crcByte, crcByte, crcByte, ← crcTab_xor]
        congr 1
        ac_rfl
      rw [List.zipWith_cons_cons, crc8_cons, crc8_cons, crc8_cons, hstep]
      exact ih bs _ _ (Nat.succ.inj hlen)

/-! ### The ten bytes of a packet -/

/-- The ten bytes of a packet, byte 0 first (00_scope R14). -/
def tenBytes (p : Packet) : List Byte := (List.range 10).map (byteAt p)

/-- The CRC of the ten bytes is one step more than that of bytes 0 to 8 (40_crc8 R127, R129). -/
theorem crc8_tenBytes (p : Packet) (init : Byte) :
    crc8 (tenBytes p) init = crcByte (packetCrcFrom init p) (storedCrc p) := by
  have h : tenBytes p = crcRunOf p ++ [byteAt p 9] := by simp [tenBytes, crcRunOf, List.range_succ]
  rw [h, crc8_append]
  rfl

/-- A packet is valid when its stored CRC is the computed one (30_encoding R92). -/
theorem packetValid_iff (p : Packet) : packetValid p = true ↔ packetCrc p = storedCrc p := decide_eq_true_iff

/-- A packet is valid exactly when the CRC of its ten bytes is 0 (40_crc8 R129). -/
theorem packetCrc_eq_storedCrc_iff (p : Packet) :
    packetCrc p = storedCrc p ↔ crc8 (tenBytes p) Config.crcInit = 0#8 := by
  rw [crc8_tenBytes, crcByte_eq_zero_iff]
  rfl

/-- Settles O16: the step on the byte that equals the remainder gives 0, and no other does. -/
theorem zeroResidueCharacterisesValidPackets : Obligations.ZeroResidueCharacterisesValidPackets := by
  unfold Obligations.ZeroResidueCharacterisesValidPackets
  constructor
  · intro m init
    rw [crc8_append, crc8_cons, crc8_nil, crcByte_eq_zero_iff]
  · exact fun q => (packetValid_iff q).trans (packetCrc_eq_storedCrc_iff q)

/-! ### Flipped bits -/

/-- The packet with the single bit `k` set (00_scope R14). -/
def unitPacket (k : Nat) : Packet := 1#80 <<< (79 - k)

/-- The one bit set in a unit packet is its own. -/
theorem pbit_unitPacket (j k : Nat) (hj : j < 80) (hk : k < 80) : pbit (unitPacket k) j = decide (j = k) := by
  simp only [pbit, unitPacket, BitVec.getMsbD_eq_getLsbD, BitVec.getLsbD_shiftLeft, BitVec.getLsbD_one, hj,
    decide_true, Bool.true_and]
  by_cases h : j = k
  · subst h
    simp
    omega
  · simp [h]
    omega

/-- To flip bit `k` of a packet is to XOR the unit packet of that bit. -/
theorem setPbit_flip (p : Packet) (k : Nat) (hk : k < 80) : setPbit p k (!pbit p k) = p ^^^ unitPacket k := by
  apply packet_ext
  intro j hj
  have hxor : pbit (p ^^^ unitPacket k) j = (pbit p j ^^ pbit (unitPacket k) j) := BitVec.getMsbD_xor
  rw [pbit_setPbit _ _ _ _ hk hj, hxor, pbit_unitPacket j k hj hk]
  split_ifs with h
  · simp [h]
  · simp [h]

/-- The bytes of an XOR are the XORs of the bytes. -/
theorem byteAt_xor (p q : Packet) (i : Nat) : byteAt (p ^^^ q) i = byteAt p i ^^^ byteAt q i :=
  BitVec.extractLsb'_xor

/-- What the flips of a packet add to the CRC of its ten bytes does not depend on the packet (40_crc8 R130). -/
theorem crc8_tenBytes_xor (p e : Packet) (init : Byte) :
    crc8 (tenBytes (p ^^^ e)) init = crc8 (tenBytes p) init ^^^ crc8 (tenBytes e) 0#8 := by
  have hzip : tenBytes (p ^^^ e) = List.zipWith (· ^^^ ·) (tenBytes p) (tenBytes e) := by
    simp [tenBytes, byteAt_xor, List.zipWith_map, List.zipWith_self]
  have hlin := crcIsLinear (tenBytes p) (tenBytes e) init 0#8 (by simp [tenBytes])
  rw [hzip, ← hlin, BitVec.xor_zero]

/-- The syndrome of bit `k`: what its flip adds to the CRC of the ten bytes (40_crc8 R131). -/
def syndrome (k : Nat) : Byte := crc8 (tenBytes (unitPacket k)) 0#8

/-- Each bit's syndrome is one bit-serial step more than the next bit's (40_crc8 R121). -/
theorem syndrome_eq_crcShift (k : Nat) (hk : k < 79) : syndrome k = crcShift (syndrome (k + 1)) := by
  have h : ∀ a < 10, ∀ b < 8, 8 * a + b < 79 → syndrome (8 * a + b) = crcShift (syndrome (8 * a + b + 1)) := by
    decide
  have e := h (k / 8) (by omega) (k % 8) (by omega)
  rw [Nat.div_add_mod] at e
  exact e hk

/-- The syndromes are the powers of x modulo the polynomial, the last bit's the eighth (40_crc8 R121). -/
theorem syndrome_eq_iterate (n : Nat) (hn : n < 80) : syndrome (79 - n) = crcShift^[8 + n] 1#8 := by
  induction n with
  | zero => decide
  | succ n ih =>
    have e : 79 - (n + 1) + 1 = 79 - n := by omega
    rw [syndrome_eq_crcShift _ (by omega), e, ih (by omega), ← Function.iterate_succ_apply' crcShift]
    rfl

/-- A bit-serial step gives 0 on 0 only (40_crc8 R121). -/
theorem eq_zero_of_crcShift_eq_zero (x : Byte) (h : crcShift x = 0#8) : x = 0#8 := by
  revert x
  decide

/-- No power of x is 0 modulo the polynomial. -/
theorem crcShift_iterate_ne_zero (n : Nat) : crcShift^[n] 1#8 ≠ 0#8 := by
  induction n with
  | zero => decide
  | succ n ih =>
    rw [Function.iterate_succ_apply']
    exact fun h => ih (eq_zero_of_crcShift_eq_zero _ h)

/-- Different remainders stay different through a bit-serial step (40_crc8 R121). -/
theorem crcShift_injective : Function.Injective crcShift := by
  intro a b h
  have hxor : crcShift (a ^^^ b) = 0#8 := by rw [crcShift_xor, h, BitVec.xor_self]
  exact BitVec.xor_eq_zero_iff.mp (eq_zero_of_crcShift_eq_zero _ hxor)

/-- The powers of x below 72 differ from 1 modulo the polynomial: its order is larger (40_crc8 R131). -/
theorem crcShift_iterate_ne_one (n : Nat) (h : n < 72) (h0 : n ≠ 0) : crcShift^[n] 1#8 ≠ 1#8 := by
  revert n
  decide

/-- No single bit has the syndrome 0 (40_crc8 R131). -/
theorem syndrome_ne_zero (k : Nat) (hk : k < 80) : syndrome k ≠ 0#8 := by
  have e : k = 79 - (79 - k) := by omega
  rw [e, syndrome_eq_iterate _ (by omega)]
  exact crcShift_iterate_ne_zero _

/-- Two bits of bytes 0 to 8 have different syndromes (40_crc8 R131). -/
theorem syndrome_ne_syndrome (j k : Nat) (hjk : j < k) (hk : k < 72) : syndrome j ≠ syndrome k := by
  have hj : j = 79 - (79 - j) := by omega
  have hk' : k = 79 - (79 - k) := by omega
  have e : 8 + (79 - j) = 8 + (79 - k) + (k - j) := by omega
  rw [hj, hk', syndrome_eq_iterate _ (by omega), syndrome_eq_iterate _ (by omega), e, Function.iterate_add_apply]
  intro h
  exact crcShift_iterate_ne_one (k - j) (by omega) (by omega) (crcShift_injective.iterate _ h)

/-- A valid packet with flips whose syndrome is not 0 is not valid (40_crc8 R131). -/
theorem packetCrc_ne_of_flips (p e : Packet) (hv : packetValid p = true) (he : crc8 (tenBytes e) 0#8 ≠ 0#8) :
    packetCrc (p ^^^ e) ≠ storedCrc (p ^^^ e) := by
  have hp := (packetCrc_eq_storedCrc_iff p).mp ((packetValid_iff p).mp hv)
  rw [Ne, packetCrc_eq_storedCrc_iff, crc8_tenBytes_xor, hp, BitVec.zero_xor]
  exact he

/-- One flipped bit of a valid packet breaks its CRC (40_crc8 R131). -/
theorem packetCrc_ne_of_single_flip (p : Packet) (k : Nat) (hv : packetValid p = true) (hk : k < 80) :
    packetCrc (setPbit p k (!pbit p k)) ≠ storedCrc (setPbit p k (!pbit p k)) := by
  rw [setPbit_flip p k hk]
  exact packetCrc_ne_of_flips p _ hv (syndrome_ne_zero k hk)

/-- Two flipped bits of bytes 0 to 8 of a valid packet break its CRC (40_crc8 R131). -/
theorem packetCrc_ne_of_double_flip (p : Packet) (j k : Nat) (hv : packetValid p = true) (hjk : j < k) (hk : k < 72) :
    packetCrc (setPbit (setPbit p j (!pbit p j)) k (!pbit p k)) ≠
      storedCrc (setPbit (setPbit p j (!pbit p j)) k (!pbit p k)) := by
  have hbit : pbit (setPbit p j (!pbit p j)) k = pbit p k := by
    rw [pbit_setPbit _ _ _ _ (by omega) (by omega), if_neg (by omega)]
  have hsyn : crc8 (tenBytes (unitPacket j ^^^ unitPacket k)) 0#8 ≠ 0#8 := by
    rw [crc8_tenBytes_xor]
    exact fun h => syndrome_ne_syndrome j k hjk hk (BitVec.xor_eq_zero_iff.mp h)
  rw [← hbit, setPbit_flip _ k (by omega), setPbit_flip p j (by omega), BitVec.xor_assoc]
  exact packetCrc_ne_of_flips p _ hv hsyn

end Sys2Proof.Machine

/-!
PROOFS. DECODE and the packet rows (41_codec R148 to R155; 30_encoding R98, R99, R103): the three ways a decode ends, each
row as a decode, and the flips a decode detects (40_crc8 R131).
-/

namespace Sys2Proof.Machine

/-! ### The three ways out of a decode -/

/-- A mismatch raises ChecksumError, whatever would have been accepted (41_codec R149). -/
theorem checkedThen_eq_afterChecksumError (accept : State → State) (s : State)
    (h : packetCrc s.rx.q ≠ storedCrc s.rx.q) : checkedThen accept s = Ref.afterChecksumError s :=
  checkedThen_of_mismatch accept s h

/-- A packet of an unregistered format is refused by its selector (41_codec R151). -/
theorem acceptByLayout_of_none (s : State) (h : layout (fmtOf s.rx.q) = none) :
    acceptByLayout s = raiseError (.unknownFormat (fmtOf s.rx.q)) s := by
  simp only [acceptByLayout, h]

/-- A packet of a registered format is read by its layout (41_codec R152). -/
theorem acceptByLayout_of_some (s : State) (l : List FieldDesc) (h : layout (fmtOf s.rx.q) = some l) :
    acceptByLayout s = extract l s := by
  simp only [acceptByLayout, h]

/-- A decode of a packet whose CRC does not match (41_codec R149). -/
theorem exec_decode_of_mismatch (s : State) (hw : decodeOperandsWritten s = true)
    (h : packetCrc s.rx.q ≠ storedCrc s.rx.q) : exec .decode s = .next (Ref.afterChecksumError s) :=
  (execDecode_of_written s hw).trans (congrArg _ (checkedThen_eq_afterChecksumError _ s h))

/-- A decode of a packet whose CRC matches and whose format is not registered (41_codec R151). -/
theorem exec_decode_of_no_layout (s : State) (hw : decodeOperandsWritten s = true)
    (h : packetCrc s.rx.q = storedCrc s.rx.q) (hl : layout (fmtOf s.rx.q) = none) :
    exec .decode s = .next (Ref.afterUnknownFormat s) := by
  refine (execDecode_of_written s hw).trans (congrArg _ ?_)
  rw [checkedThen_of_match _ s h, acceptByLayout_of_none (computeQCrc (beginRx s)) hl]
  rfl

/-- A decode of a packet whose CRC matches and whose format is registered (41_codec R152, R155). -/
theorem exec_decode_of_layout (s : State) (l : List FieldDesc) (hw : decodeOperandsWritten s = true)
    (h : packetCrc s.rx.q = storedCrc s.rx.q) (hl : layout (fmtOf s.rx.q) = some l) :
    exec .decode s = .next (extract l (computeQCrc (beginRx s))) := by
  refine (execDecode_of_written s hw).trans (congrArg _ ?_)
  rw [checkedThen_of_match _ s h, acceptByLayout_of_some (computeQCrc (beginRx s)) l hl]

/-- The values of a layout put in the slots from 0 on, read slot by slot (41_codec R152). -/
theorem slot_putSlots_unpackFields (q : Packet) (l : List FieldDesc) (m : Nat) (f : FieldRegs) (hl : l.length ≤ 6)
    (hm : m < 6) :
    slot (putSlots (unpackFields q l) 0 f) m =
      match l[m]? with
      | some d => unpackField q d.first d.width d.signed
      | none => slot f m := by
  have hlen : (unpackFields q l).length = l.length := by simp [unpackFields]
  rw [slot_putSlots _ 0 m f (by omega) hm, hlen]
  by_cases h : m < l.length
  · simp [h, unpackFields]
  · simp [h]

/-- Settles O21: the three ways out, the last one slot by slot. -/
theorem decodeTestsChecksumThenFormatThenExtracts : Obligations.DecodeTestsChecksumThenFormatThenExtracts := by
  unfold Obligations.DecodeTestsChecksumThenFormatThenExtracts
  refine ⟨exec_decode_of_mismatch, exec_decode_of_no_layout, ?_⟩
  intro s l hw hcrc hl
  have h6 := layout_length_le _ l hl
  refine ⟨putSlots (unpackFields s.rx.q l) 0 s.rx.fOut, ?_, ?_, ?_⟩
  · rw [exec_decode_of_layout s l hw hcrc hl, ← show (unpackFields s.rx.q l).length = l.length by simp [unpackFields]]
    rfl
  · intro m d hm
    have hlt := (List.getElem?_eq_some_iff.mp hm).1
    rw [slot_putSlots_unpackFields _ _ _ _ h6 (by omega), hm]
    rfl
  · intro m hge hlt
    rw [slot_putSlots_unpackFields _ _ _ _ h6 hlt, List.getElem?_eq_none hge]

/-- Settles O22: each of the three ways out sets `RX_ERR` by the first test that failed; the two failures write no result
register. -/
theorem decodeReportsTheFirstFailedTest : Obligations.DecodeReportsTheFirstFailedTest := by
  unfold Obligations.DecodeReportsTheFirstFailedTest
  intro s hw
  by_cases hcrc : packetCrc s.rx.q = storedCrc s.rx.q
  · cases hl : layout (fmtOf s.rx.q) with
    | none =>
      exact ⟨_, exec_decode_of_no_layout s hw hcrc hl, fun h => absurd hcrc h, fun _ _ => rfl,
        fun _ h => absurd rfl h, fun _ => ⟨rfl, rfl, rfl, rfl, rfl⟩⟩
    | some l =>
      exact ⟨_, exec_decode_of_layout s l hw hcrc hl, fun h => absurd hcrc h, fun _ h => (nomatch h),
        fun _ _ => ⟨rfl, rfl⟩, fun h => absurd rfl h⟩
  · exact ⟨_, exec_decode_of_mismatch s hw hcrc, fun _ => rfl, fun h => absurd h hcrc, fun h => absurd h hcrc,
      fun _ => ⟨rfl, rfl, rfl, rfl, rfl⟩⟩

/-! ### The packet rows as decodes -/

/-- A decode of a packet just written to `Q` begins (70_reset_and_hazards R264). -/
theorem exec_decode_withQ (p : Packet) (s : State) :
    exec .decode (Ref.withQ p s) = .next (checkedThen acceptByLayout (writeQ p s)) :=
  execDecode_of_written (writeQ p s) (decodeOperandsWritten_writeQ p s)

/-- The pattern of format 0 and its layout read the same fields (30_encoding R98). -/
theorem exec_pktFmt0_eq_decode (id : BitVec 4) (t : BitVec 12) (r : BitVec 44) (v c : Byte) (s : State) :
    exec (.pktFmt0 id t r v c) s = exec .decode (Ref.withQ (pktFmt0Bits id t r v c) s) := by
  obtain ⟨hfmt, hid, ht, -, hv, -⟩ := field_pktFmt0Bits id t r v c
  rw [exec_decode_withQ]
  refine congrArg _ (checkedThen_congr _ _ _ fun u hu => ?_)
  have hl : layout (fmtOf u.rx.q) = some layoutFmt0 := by
    rw [hu, writeQ_rx_q, fmtOf, hfmt]
    rfl
  rw [acceptByLayout_of_some u _ hl, extract, hu]
  simp [fmtOf, idOf, hfmt, hid, unpackFields, layoutFmt0, unpackField, ht, hv]

/-- The pattern of format 1 and its layout read the same fields (30_encoding R99). -/
theorem exec_pktFmt1_eq_decode (id : BitVec 4) (t1 t2 : BitVec 12) (s1 s2 : Byte) (p : BitVec 16) (v c : Byte)
    (s : State) :
    exec (.pktFmt1 id t1 t2 s1 s2 p v c) s = exec .decode (Ref.withQ (pktFmt1Bits id t1 t2 s1 s2 p v c) s) := by
  obtain ⟨hfmt, hid, ht1, ht2, hs1, hs2, hp, hv, -⟩ := field_pktFmt1Bits id t1 t2 s1 s2 p v c
  rw [exec_decode_withQ]
  refine congrArg _ (checkedThen_congr _ _ _ fun u hu => ?_)
  have hl : layout (fmtOf u.rx.q) = some layoutFmt1 := by
    rw [hu, writeQ_rx_q, fmtOf, hfmt]
    rfl
  rw [acceptByLayout_of_some u _ hl, extract, hu]
  simp [fmtOf, idOf, hfmt, hid, unpackFields, layoutFmt1, unpackField, ht1, ht2, hs1, hs2, hp, hv]

/-- The selectors of the reserved rows have no layout (30_encoding R103, 41_codec R135). -/
theorem layout_of_fmtInRange (lo hi : Nat) (fmt : BitVec 4) (h : fmtInRange lo hi fmt = true) (hlo : 2 ≤ lo) :
    layout fmt = none := by
  simp only [fmtInRange, Bool.and_eq_true, decide_eq_true_eq] at h
  exact layout_of_two_le fmt (by omega)

/-- A reserved row is the decode of a packet whose selector has no layout (30_encoding R103). -/
theorem rejectReserved_eq_decode (lo hi : Nat) (fmt id : BitVec 4) (payload : BitVec 64) (c : Byte) (s : State)
    (hr : fmtInRange lo hi fmt = true) (hlo : 2 ≤ lo) :
    .next (rejectReserved fmt id payload c s) = exec .decode (Ref.withQ (pktReservedBits fmt id payload c) s) := by
  obtain ⟨hfmt, -, -, -⟩ := field_pktReservedBits fmt id payload c
  rw [exec_decode_withQ]
  refine congrArg _ (checkedThen_congr _ _ _ fun u hu => ?_)
  have hsel : fmtOf u.rx.q = fmt := by rw [hu, writeQ_rx_q, fmtOf, hfmt]
  rw [acceptByLayout_of_none u (by rw [hsel, layout_of_fmtInRange lo hi fmt hr hlo]), hsel]

/-- Settles O24: each row's pattern against the layout of its selector. -/
theorem packetRowsAreDecodes : Obligations.PacketRowsAreDecodes := by
  unfold Obligations.PacketRowsAreDecodes
  intro i p s hwf henc
  cases i <;> cases henc
  case pktFmt0 id t r v c => exact exec_pktFmt0_eq_decode id t r v c s
  case pktFmt1 id t1 t2 s1 s2 p v c => exact exec_pktFmt1_eq_decode id t1 t2 s1 s2 p v c s
  case pktReserved2to3 fmt id payload c => exact rejectReserved_eq_decode 2 3 fmt id payload c s hwf (by omega)
  case pktReserved4to7 fmt id payload c => exact rejectReserved_eq_decode 4 7 fmt id payload c s hwf (by omega)
  case pktReserved8to15 fmt id payload c => exact rejectReserved_eq_decode 8 15 fmt id payload c s hwf (by omega)

/-- Settles O28: the row is a decode, and a decode tests the checksum first. -/
theorem packetRowsWithBadCrcRaiseChecksum : Obligations.PacketRowsWithBadCrcRaiseChecksum := by
  unfold Obligations.PacketRowsWithBadCrcRaiseChecksum
  intro i p s hwf henc hcrc
  rw [packetRowsAreDecodes i p s hwf henc]
  exact exec_decode_of_mismatch (Ref.withQ p s) (decodeOperandsWritten_writeQ p s) hcrc

/-- Settles O25: the row's own fields are delivered once the stored CRC is the computed one. -/
theorem pktFmt0Delivers : Obligations.PktFmt0Delivers := by
  unfold Obligations.PktFmt0Delivers
  intro id t r v c s hcrc
  obtain ⟨-, -, -, -, -, hc⟩ := field_pktFmt0Bits id t r v c
  have hmatch : packetCrc (pktFmt0Bits id t r v c) = storedCrc (pktFmt0Bits id t r v c) := hcrc.trans hc.symm
  exact congrArg _ (checkedThen_of_match _ (writeQ _ s) hmatch)

/-- Settles O26: the row's own fields are delivered once the stored CRC is the computed one. -/
theorem pktFmt1Delivers : Obligations.PktFmt1Delivers := by
  unfold Obligations.PktFmt1Delivers
  intro id t1 t2 s1 s2 p v c s hcrc
  obtain ⟨-, -, -, -, -, -, -, -, hc⟩ := field_pktFmt1Bits id t1 t2 s1 s2 p v c
  have hmatch : packetCrc (pktFmt1Bits id t1 t2 s1 s2 p v c) = storedCrc (pktFmt1Bits id t1 t2 s1 s2 p v c) :=
    hcrc.trans hc.symm
  exact congrArg _ (checkedThen_of_match _ (writeQ _ s) hmatch)

/-- A reserved packet with a matching CRC ends in UnknownFormatError with its selector (41_codec R151). -/
theorem rejectReserved_of_match (lo hi : Nat) (fmt id : BitVec 4) (payload : BitVec 64) (c : Byte) (s : State)
    (hcrc : packetCrc (pktReservedBits fmt id payload c) = c) (hlo : 2 ≤ lo) (hr : fmtInRange lo hi fmt = true) :
    (.next (rejectReserved fmt id payload c s) : Host.Outcome State Fault Refusal) =
      .next (Ref.afterUnknownFormat (Ref.withQ (pktReservedBits fmt id payload c) s)) := by
  obtain ⟨hfmt, -, -, hc⟩ := field_pktReservedBits fmt id payload c
  rw [rejectReserved_eq_decode lo hi fmt id payload c s hr hlo]
  exact exec_decode_of_no_layout (Ref.withQ _ s) (decodeOperandsWritten_writeQ _ s) (hcrc.trans hc.symm)
    ((congrArg layout hfmt).trans (layout_of_fmtInRange lo hi fmt hr hlo))

/-- Settles O27: the three rows have one meaning, each over its own selectors. -/
theorem reservedPacketsRaise : Obligations.ReservedPacketsRaise := by
  unfold Obligations.ReservedPacketsRaise
  intro fmt id payload c s hcrc
  exact ⟨rejectReserved_of_match 2 3 fmt id payload c s hcrc (by omega),
    rejectReserved_of_match 4 7 fmt id payload c s hcrc (by omega),
    rejectReserved_of_match 8 15 fmt id payload c s hcrc (by omega)⟩

/-! ### Flipped bits -/

/-- Settles O31: the flip leaves a packet whose CRC does not match. -/
theorem everySingleBitFlipIsDetected : Obligations.EverySingleBitFlipIsDetected := by
  unfold Obligations.EverySingleBitFlipIsDetected
  intro s q k hw hv hk hq
  exact exec_decode_of_mismatch s hw (hq ▸ packetCrc_ne_of_single_flip q k hv hk)

/-- Settles O32: the two flips leave a packet whose CRC does not match. -/
theorem everyDoubleBitFlipIsDetected : Obligations.EveryDoubleBitFlipIsDetected := by
  unfold Obligations.EveryDoubleBitFlipIsDetected
  intro s q j k hw hv hjk hk hq
  exact exec_decode_of_mismatch s hw (hq ▸ packetCrc_ne_of_double_flip q j k hv hjk hk)

/-! ### ENCODE by the pattern of the opcode table -/

/-- The CRC of bytes 0 to 8 is that of every packet with the same 72 bits before byte 9 (40_crc8 R127). -/
theorem packetCrc_append_crc (x : BitVec 72) (c c' : Byte) :
    packetCrc ((x ++ c : BitVec 80) : Packet) = packetCrc ((x ++ c' : BitVec 80) : Packet) := by
  have hbyte : ∀ i < 9, byteAt (x ++ c : BitVec 80) i = byteAt (x ++ c' : BitVec 80) i := by
    intro i hi
    apply BitVec.eq_of_getLsbD_eq
    intro j hj
    have h8 : ¬ 80 - 8 * i - 8 + j < 8 := by omega
    simp only [byteAt, packetByte, packetSlice, BitVec.getLsbD_extractLsb', BitVec.getLsbD_append, h8, if_false]
  have hrun : crcRunOf (x ++ c : BitVec 80) = crcRunOf (x ++ c' : BitVec 80) :=
    List.map_congr_left fun i hi => hbyte i (List.mem_range.mp hi)
  rw [packetCrc, packetCrcFrom, hrun]
  rfl

/-- The CRC byte of a pattern word does not enter its CRC (40_crc8 R127). -/
theorem packetCrc_patternWord (fmt id : Word) (f : FieldRegs) (c c' : Byte) :
    packetCrc (Ref.patternWord fmt id f c) = packetCrc (Ref.patternWord fmt id f c') := by
  unfold Ref.patternWord
  split_ifs
  · exact packetCrc_append_crc _ c c'
  · exact packetCrc_append_crc _ c c'
  · exact packetCrc_append_crc _ c c'

/-- The payload bits in no field of the layout are zero, field by field (41_codec R140). -/
theorem field_encodePacket_of_apart (fmt id : Word) (f : FieldRegs) (l : List FieldDesc) (s w : Nat)
    (hl : layout (fmt.setWidth 4) = some l) (hs : 8 ≤ s) (h : s + w ≤ 72) (ha : ∀ d ∈ l, apartFrom s w d) :
    field (encodePacket fmt id f) s w = 0#w := by
  rw [field_encodePacket _ _ _ _ _ h, encodeBody_of_layout _ _ _ l hl,
    field_packFields_of_apart f l 0 s w _ (layout_inPayload _ _ hl) (by omega) ha,
    field_encodeHeader _ _ _ _ hs (by omega)]

/-- The packet ENCODE builds is the pattern word of its operands and its CRC (30_encoding R98, R99; 41_codec R143). -/
theorem encodePacket_eq_patternWord (fmt id : Word) (f : FieldRegs) (crc : Byte)
    (hcrc : storedCrc (encodePacket fmt id f) = crc) : encodePacket fmt id f = Ref.patternWord fmt id f crc := by
  obtain ⟨hfmt, hid⟩ := fmtOf_idOf_of_byteAt_zero _ _ _ (byteAt_zero_encodePacket fmt id f)
  have hc : field (encodePacket fmt id f) 72 8 = crc := hcrc
  rw [fmtOf] at hfmt
  rw [idOf] at hid
  unfold Ref.patternWord
  split_ifs with h0 h1
  · have hl : layout (fmt.setWidth 4) = some layoutFmt0 := by rw [h0]; rfl
    have hd := fun m d => field_encodePacket_of_layout fmt id f layoutFmt0 m d hl
    rw [← pktFmt0Bits_of_fields (encodePacket fmt id f) (hfmt.trans h0), hid, hc, hd 0 _ rfl, hd 1 _ rfl,
      field_encodePacket_of_apart fmt id f _ 20 44 hl (by omega) (by omega) (by decide)]
    rfl
  · have hl : layout (fmt.setWidth 4) = some layoutFmt1 := by rw [h1]; rfl
    have hd := fun m d => field_encodePacket_of_layout fmt id f layoutFmt1 m d hl
    rw [← pktFmt1Bits_of_fields (encodePacket fmt id f) (hfmt.trans h1), hid, hc, hd 0 _ rfl, hd 1 _ rfl, hd 2 _ rfl,
      hd 3 _ rfl, hd 4 _ rfl, hd 5 _ rfl]
    rfl
  · have h0' : (fmt.setWidth 4).toNat ≠ 0 := fun h => h0 (BitVec.eq_of_toNat_eq h)
    have h1' : (fmt.setWidth 4).toNat ≠ 1 := fun h => h1 (BitVec.eq_of_toNat_eq h)
    have hl : layout (fmt.setWidth 4) = none := layout_of_two_le _ (by omega)
    rw [← pktReservedBits_of_fields (encodePacket fmt id f), hfmt, hid, hc, payload_encodePacket_of_no_layout _ _ _ hl]

/-- The CRC of the packet ENCODE builds is that of the pattern word with a zero CRC byte (40_crc8 R127). -/
theorem packetCrc_encodePacket (fmt id : Word) (f : FieldRegs) :
    packetCrc (encodePacket fmt id f) = packetCrc (Ref.patternWord fmt id f 0#8) := by
  rw [encodePacket_eq_patternWord fmt id f _ rfl]
  exact packetCrc_patternWord _ _ _ _ _

/-- Settles O20: the stamped packet is the pattern word with the CRC of the pattern word. -/
theorem encodeBuildsThePatternWord : Obligations.EncodeBuildsThePatternWord := by
  unfold Obligations.EncodeBuildsThePatternWord
  intro s hb hw
  have hcrc := packetCrc_encodePacket s.tx.fmtIn s.tx.idIn s.tx.fIn
  have hp := encodePacket_eq_patternWord _ _ _ _ ((storedCrc_encodePacket s.tx.fmtIn s.tx.idIn s.tx.fIn).trans hcrc)
  rw [exec_encode_of_written s hb hw, putPacket, hcrc, hp]
  rfl

/-! ### The round trip -/

/-- A decode of the packet ENCODE built of a registered format succeeds (41_codec R157). -/
theorem exec_decode_encodePacket (fmt id : Word) (f : FieldRegs) (l : List FieldDesc) (t : State)
    (hl : layout (fmt.setWidth 4) = some l) :
    exec .decode (Ref.withQ (encodePacket fmt id f) t) =
      .next (extract l (computeQCrc (beginRx (Ref.withQ (encodePacket fmt id f) t)))) := by
  obtain ⟨hfmt, -⟩ := fmtOf_idOf_of_byteAt_zero _ _ _ (byteAt_zero_encodePacket fmt id f)
  refine exec_decode_of_layout _ l (decodeOperandsWritten_writeQ _ t) (storedCrc_encodePacket fmt id f).symm ?_
  exact (congrArg layout hfmt).trans hl

/-- What a decode reads of a field ENCODE packed: the operand cut to the field's width and extended again
(41_codec R136, R137). -/
theorem unpackField_encodePacket (fmt id : Word) (f : FieldRegs) (l : List FieldDesc) (m : Nat) (d : FieldDesc)
    (hl : layout (fmt.setWidth 4) = some l) (hm : l[m]? = some d) :
    unpackField (encodePacket fmt id f) d.first d.width d.signed =
      if d.signed then ((slot f m).setWidth d.width).signExtend 32 else ((slot f m).setWidth d.width).setWidth 32 := by
  rw [unpackField, field_encodePacket_of_layout fmt id f l m d hl hm]

/-- The id a decode reads of a packet ENCODE built of an id in range (41_codec R141, R157). -/
theorem idOf_encodePacket_toNat (fmt id : Word) (f : FieldRegs) (h : id.toNat < 16) :
    (idOf (encodePacket fmt id f)).toNat = id.toNat := by
  obtain ⟨-, hid⟩ := fmtOf_idOf_of_byteAt_zero _ _ _ (byteAt_zero_encodePacket fmt id f)
  rw [hid, BitVec.toNat_setWidth, Nat.mod_eq_of_lt h]

/-- An unsigned value within `w` bits survives the cut to them (41_codec R157). -/
theorem setWidth_setWidth_of_lt (v : Word) (w : Nat) (h : v.toNat < 2 ^ w) : (v.setWidth w).setWidth 32 = v := by
  apply BitVec.eq_of_toNat_eq
  rw [BitVec.toNat_setWidth, BitVec.toNat_setWidth, Nat.mod_eq_of_lt h, Nat.mod_eq_of_lt v.isLt]

/-- A signed value within twelve bits survives the cut to them (41_codec R157). -/
theorem signExtend_setWidth_of_range (v : Word) (hlo : -2048 ≤ v.toInt) (hhi : v.toInt ≤ 2047) :
    (v.setWidth 12).signExtend 32 = v := by
  apply BitVec.eq_of_toInt_eq
  rw [BitVec.toInt_signExtend_of_le (by omega), BitVec.toInt_setWidth]
  have h := BitVec.toInt_eq_toNat_cond v
  have hlt := v.isLt
  rw [Int.bmod_def]
  split at h <;> split_ifs <;> omega

/-- Settles O29: both fields of format 0 survive the cut to their widths. -/
theorem roundTripFormat0 : Obligations.RoundTripFormat0 := by
  unfold Obligations.RoundTripFormat0
  intro s hb hw hfmt hid hlo hhi hv
  have hl : layout (s.tx.fmtIn.setWidth 4) = some layoutFmt0 := by rw [hfmt]; rfl
  have hd := fun m d => unpackField_encodePacket s.tx.fmtIn s.tx.idIn s.tx.fIn layoutFmt0 m d hl
  obtain ⟨hsel, -⟩ := fmtOf_idOf_of_byteAt_zero _ _ _ (byteAt_zero_encodePacket s.tx.fmtIn s.tx.idIn s.tx.fIn)
  refine ⟨_, _, exec_encode_of_written s hb hw, exec_decode_encodePacket _ _ _ _ _ hl, rfl, rfl, ?_,
    idOf_encodePacket_toNat _ _ _ hid, rfl, ?_, ?_⟩
  · exact hsel.trans (by rw [hfmt]; rfl)
  · exact (hd 0 _ rfl).trans (signExtend_setWidth_of_range _ hlo hhi)
  · exact (hd 1 _ rfl).trans (setWidth_setWidth_of_lt _ 8 hv)

/-- Settles O30: each of the six fields of format 1 survives the cut to its width. -/
theorem roundTripFormat1 : Obligations.RoundTripFormat1 := by
  unfold Obligations.RoundTripFormat1
  intro s hb hw hfmt hid hlo0 hhi0 hlo1 hhi1 h2 h3 h4 h5
  have hl : layout (s.tx.fmtIn.setWidth 4) = some layoutFmt1 := by rw [hfmt]; rfl
  have hd := fun m d => unpackField_encodePacket s.tx.fmtIn s.tx.idIn s.tx.fIn layoutFmt1 m d hl
  have e0 := (hd 0 _ rfl).trans (signExtend_setWidth_of_range _ hlo0 hhi0)
  have e1 := (hd 1 _ rfl).trans (signExtend_setWidth_of_range _ hlo1 hhi1)
  have e2 := (hd 2 _ rfl).trans (setWidth_setWidth_of_lt _ 8 h2)
  have e3 := (hd 3 _ rfl).trans (setWidth_setWidth_of_lt _ 8 h3)
  have e4 := (hd 4 _ rfl).trans (setWidth_setWidth_of_lt _ 16 h4)
  have e5 := (hd 5 _ rfl).trans (setWidth_setWidth_of_lt _ 8 h5)
  obtain ⟨hsel, -⟩ := fmtOf_idOf_of_byteAt_zero _ _ _ (byteAt_zero_encodePacket s.tx.fmtIn s.tx.idIn s.tx.fIn)
  refine ⟨_, _, exec_encode_of_written s hb hw, exec_decode_encodePacket _ _ _ _ _ hl, rfl, rfl, ?_,
    idOf_encodePacket_toNat _ _ _ hid, rfl, ?_⟩
  · exact hsel.trans (by rw [hfmt]; rfl)
  · exact (FieldRegs.mk.injEq ..).mpr ⟨e0, e1, e2, e3, e4, e5⟩

end Sys2Proof.Machine

/-!
PROOFS. MATCH by its two ways (44_matcher R206 to R217): the search against the rows that repeat, and what follows a found
row as the decode of the packed packet.
-/

namespace Sys2Proof.Machine

/-! ### The search and the rows that repeat -/

/-- A row of the capture is repeated when it is eligible and stands at another index too (44_matcher R207 to R209). -/
theorem repeated_iff_repeatedAt (rows : List Row) (n : Nat) (r : Row) (hr : rows[n]? = some r) :
    repeated rows r = true ↔ Ref.repeatedAt rows n r := by
  rw [repeated_iff, eligible_iff, Ref.repeatedAt, occurrences, two_le_countP]
  constructor
  · rintro ⟨⟨hmin, hmax⟩, i, j, x, y, hij, hi, hj, hx, hy⟩
    simp only [Bool.and_eq_true, decide_eq_true_eq] at hx hy
    obtain ⟨-, rfl⟩ := hx
    obtain ⟨-, rfl⟩ := hy
    by_cases h : i = n
    · exact ⟨hr, hmin, hmax, j, by omega, hj⟩
    · exact ⟨hr, hmin, hmax, i, h, hi⟩
  · rintro ⟨-, hmin, hmax, m, hmn, hm⟩
    have htest : (eligible r && decide (r = r)) = true := by simp [(eligible_iff r).mpr ⟨hmin, hmax⟩]
    rcases Nat.lt_or_gt_of_ne hmn with h | h
    · exact ⟨⟨hmin, hmax⟩, m, n, r, r, h, hm, hr, htest, htest⟩
    · exact ⟨⟨hmin, hmax⟩, n, m, r, r, h, hr, hm, htest, htest⟩

/-- What the search finds is the first repeated row (44_matcher R206, R209). -/
theorem first_of_searchRows_some (rows : List Row) (n : Nat) (r : Row) (h : searchRows rows = some (n, r)) :
    Ref.repeatedAt rows n r ∧ ∀ n' r', n' < n → ¬ Ref.repeatedAt rows n' r' := by
  obtain ⟨k, hk, hget, hrep, hfirst⟩ := searchFrom_some rows rows 0 n r h
  obtain rfl : n = k := by omega
  refine ⟨(repeated_iff_repeatedAt rows n r hget).mp hrep, fun n' r' hlt hat => ?_⟩
  have hget' : rows[n']? = some r' := hat.1
  have hno := hfirst n' r' hlt hget'
  rw [(repeated_iff_repeatedAt rows n' r' hget').mpr hat] at hno
  cases hno

/-- The search finds nothing exactly when no row repeats (44_matcher R206, R210). -/
theorem searchRows_eq_none_iff (rows : List Row) :
    searchRows rows = none ↔ ∀ n r, ¬ Ref.repeatedAt rows n r := by
  constructor
  · intro h n r hat
    have hget : rows[n]? = some r := hat.1
    have hno := searchFrom_none rows rows 0 h n r hget
    rw [(repeated_iff_repeatedAt rows n r hget).mpr hat] at hno
    cases hno
  · intro h
    cases hs : searchRows rows with
    | none => rfl
    | some found => exact absurd (first_of_searchRows_some rows found.1 found.2 hs).1 (h _ _)

/-- The search finds the first repeated row (44_matcher R206, R209). -/
theorem searchRows_of_first (rows : List Row) (n : Nat) (r : Row) (hat : Ref.repeatedAt rows n r)
    (hfirst : ∀ n' r', n' < n → ¬ Ref.repeatedAt rows n' r') : searchRows rows = some (n, r) := by
  cases hs : searchRows rows with
  | none => exact absurd hat ((searchRows_eq_none_iff rows).mp hs n r)
  | some found =>
    obtain ⟨m, q⟩ := found
    obtain ⟨hat', hfirst'⟩ := first_of_searchRows_some rows m q hs
    obtain rfl : m = n := by
      by_contra hne
      rcases Nat.lt_or_gt_of_ne hne with h | h
      · exact hfirst m q h hat'
      · exact hfirst' n r h hat
    rw [Option.some.inj (hat'.1.symm.trans hat.1)]

/-! ### A found row goes on as a decode -/

/-- A decode's end as the end of a MATCH that took row `r` at index `n`: with the row's registers and the `M_STATE` that
says whether it decoded (44_matcher R209, R216). -/
def withMatch (n : Nat) (r : Row) (t : State) : State :=
  { t with
    rx.matchRow := n, rx.matchLen := r.length, rx.matchWritten := true,
    rx.mState := if t.rx.outValid then 4#3 else 5#3 }

/-- A decode leaves `Q` as it was (41_codec R148). -/
@[simp] theorem checkedThen_acceptByLayout_rx_q (s : State) : (checkedThen acceptByLayout s).rx.q = s.rx.q := by
  by_cases hcrc : packetCrc s.rx.q = storedCrc s.rx.q
  · rw [checkedThen_of_match _ s hcrc]
    cases hl : layout (fmtOf s.rx.q) with
    | none => rw [acceptByLayout_of_none (computeQCrc (beginRx s)) hl, raiseError_rx_q]; rfl
    | some l => rw [acceptByLayout_of_some (computeQCrc (beginRx s)) l hl]; rfl
  · rw [checkedThen_of_mismatch _ s hcrc]
    rfl

/-- Step 3 of MATCH on a packet whose CRC matches (44_matcher R213). -/
theorem matchCheck_of_match (s : State) (h : packetCrc s.rx.q = storedCrc s.rx.q) :
    matchCheck s = matchDispatch (setMState mChecksumValidated (computeQCrc s)) := by
  simp only [matchCheck, computeQCrc_rx, h, if_true]

/-- Step 3 of MATCH on a packet whose CRC does not match (44_matcher R213). -/
theorem matchCheck_of_mismatch (s : State) (h : packetCrc s.rx.q ≠ storedCrc s.rx.q) :
    matchCheck s = matchFail (.checksum (packetCrc s.rx.q) (storedCrc s.rx.q)) (computeQCrc s) := by
  simp only [matchCheck, computeQCrc_rx, h, if_false]

/-- Step 4 of MATCH on a packet of an unregistered format (44_matcher R214). -/
theorem matchDispatch_of_none (s : State) (h : layout (fmtOf s.rx.q) = none) :
    matchDispatch s = matchFail (.unknownFormat (fmtOf s.rx.q)) s := by
  simp only [matchDispatch, h]

/-- Steps 4 to 6 of MATCH on a packet of a registered format (44_matcher R214, R215). -/
theorem matchDispatch_of_some (s : State) (l : List FieldDesc) (h : layout (fmtOf s.rx.q) = some l) :
    matchDispatch s = setMState mDecoded (extract l (setMState mFormatDispatched s)) := by
  simp only [matchDispatch, h]

/-- MATCH that found a row ends as the decode of the packed packet does, with the row's registers: the checksum test, the
dispatch and the extraction are those of DECODE (44_matcher R212 to R216). -/
theorem matchCapture_eq_withMatch (s : State) (n : Nat) (r : Row) (h : searchRows s.host.capture = some (n, r)) :
    matchCapture s = withMatch n r (checkedThen acceptByLayout (writeQ (packRow r s.rx.q) s)) := by
  have hq : (matchBegin s).rx.q = s.rx.q := rfl
  rw [matchCapture_of_some s n r h, matchPack, matchRowFound_rx_q, hq]
  generalize packRow r s.rx.q = p
  let u := writeQ p (matchRowFound n r (matchBegin s))
  by_cases hcrc : packetCrc p = storedCrc p
  · rw [checkedThen_of_match _ (writeQ p s) hcrc, matchCheck_of_match u hcrc]
    cases hl : layout (fmtOf p) with
    | none =>
      rw [acceptByLayout_of_none (computeQCrc (beginRx (writeQ p s))) hl,
        matchDispatch_of_none (setMState mChecksumValidated (computeQCrc u)) hl]
      rfl
    | some l =>
      rw [acceptByLayout_of_some (computeQCrc (beginRx (writeQ p s))) l hl,
        matchDispatch_of_some (setMState mChecksumValidated (computeQCrc u)) l hl]
      rfl
  · rw [checkedThen_of_mismatch _ (writeQ p s) hcrc, matchCheck_of_mismatch u hcrc]
    rfl

/-- Settles O48: no row repeats, so the search finds nothing and MATCH fails at once. -/
theorem matchWithoutARepeatRaisesRowNotFound : Obligations.MatchWithoutARepeatRaisesRowNotFound := by
  unfold Obligations.MatchWithoutARepeatRaisesRowNotFound
  intro s hw hnone
  refine (execMatchRows_of_written s hw).trans ?_
  rw [matchCapture_of_none s ((searchRows_eq_none_iff _).mpr hnone)]
  rfl

/-- Settles O49: the search finds the first repeated row, and the packed packet goes on as a decode. -/
theorem matchTakesTheFirstRepeatedRow : Obligations.MatchTakesTheFirstRepeatedRow := by
  unfold Obligations.MatchTakesTheFirstRepeatedRow
  intro s n r hw hat hfirst
  have hs := searchRows_of_first _ n r hat hfirst
  have hlen := length_of_searchRows_some _ n r hs
  refine ⟨packRow r s.rx.q, _, fun k hk => pbit_packRow r _ k hlen hk, exec_decode_withQ _ s, ?_⟩
  exact (execMatchRows_of_written s hw).trans (congrArg _ (matchCapture_eq_withMatch s n r hs))

/-! ### A decode after a MATCH -/

/-- Field registers with the same six slots are the same. -/
theorem fieldRegs_ext (f g : FieldRegs) (h : ∀ m < 6, slot f m = slot g m) : f = g := by
  obtain ⟨f0, f1, f2, f3, f4, f5⟩ := f
  obtain ⟨g0, g1, g2, g3, g4, g5⟩ := g
  exact (FieldRegs.mk.injEq ..).mpr
    ⟨h 0 (by omega), h 1 (by omega), h 2 (by omega), h 3 (by omega), h 4 (by omega), h 5 (by omega)⟩

/-- Writing the same values to the slots again changes nothing (41_codec R152). -/
theorem putSlots_putSlots (vs : List Word) (f : FieldRegs) (h : vs.length ≤ 6) :
    putSlots vs 0 (putSlots vs 0 f) = putSlots vs 0 f := by
  apply fieldRegs_ext
  intro m hm
  rw [slot_putSlots vs 0 m _ (by omega) hm, slot_putSlots vs 0 m f (by omega) hm]
  split_ifs <;> rfl

/-- A decode of the packet that has just been decoded gives the same state again (41_codec R155). -/
theorem extract_withMatch_extract (l : List FieldDesc) (n : Nat) (r : Row) (u : State) (hl : l.length ≤ 6) :
    extract l (computeQCrc (beginRx (withMatch n r (extract l (computeQCrc (beginRx u)))))) =
      withMatch n r (extract l (computeQCrc (beginRx u))) := by
  have hlen : (unpackFields u.rx.q l).length ≤ 6 := by simpa [unpackFields] using hl
  have hput := putSlots_putSlots (unpackFields u.rx.q l) u.rx.fOut hlen
  simp only [extract, deliver, withMatch, computeQCrc, setRem, beginRx, hput]

/-- Settles O51: a MATCH that ends with `OUT_VALID` 1 has extracted the packet in `Q`, and extracting it again changes
nothing. -/
theorem decodeAfterMatchChangesNothing : Obligations.DecodeAfterMatchChangesNothing := by
  unfold Obligations.DecodeAfterMatchChangesNothing
  intro s t hw hmatch hvalid
  obtain rfl : matchCapture s = t := Host.Outcome.next.inj ((execMatchRows_of_written s hw).symm.trans hmatch)
  cases hs : searchRows s.host.capture with
  | none =>
    rw [matchCapture_of_none s hs] at hvalid
    cases hvalid
  | some found =>
    obtain ⟨n, r⟩ := found
    rw [matchCapture_eq_withMatch s n r hs] at hvalid ⊢
    generalize packRow r s.rx.q = p at hvalid ⊢
    by_cases hcrc : packetCrc p = storedCrc p
    · rw [checkedThen_of_match _ (writeQ p s) hcrc] at hvalid ⊢
      cases hl : layout (fmtOf p) with
      | none =>
        rw [acceptByLayout_of_none (computeQCrc (beginRx (writeQ p s))) hl] at hvalid
        cases hvalid
      | some l =>
        rw [acceptByLayout_of_some (computeQCrc (beginRx (writeQ p s))) l hl]
        let u := withMatch n r (extract l (computeQCrc (beginRx (writeQ p s))))
        exact (exec_decode_of_layout u l (decodeOperandsWritten_writeQ p s) hcrc hl).trans
          (congrArg _ (extract_withMatch_extract l n r _ (layout_length_le _ l hl)))
    · rw [checkedThen_of_mismatch _ (writeQ p s) hcrc] at hvalid
      cases hvalid

/-! ### Which test a MATCH failed -/

/-- A MATCH that found a row reports the first test of the decode that failed (44_matcher R217, 41_codec R153). -/
theorem withMatch_decode_reports (n : Nat) (r : Row) (p : Packet) (s : State) :
    let t := withMatch n r (checkedThen acceptByLayout (writeQ p s))
    (packetCrc p ≠ storedCrc p → t.rx.rxErr = 1#3) ∧
    (packetCrc p = storedCrc p → layout (fmtOf p) = none → t.rx.rxErr = 3#3) ∧
    (packetCrc p = storedCrc p → layout (fmtOf p) ≠ none →
      t.rx.rxErr = 0#3 ∧ t.rx.outValid = true ∧ t.rx.mState = 4#3) ∧
    (t.rx.rxErr ≠ 0#3 → t.rx.outValid = false ∧ t.rx.mState = 5#3 ∧ t.rx.fmtOut = s.rx.fmtOut ∧
      t.rx.idOut = s.rx.idOut ∧ t.rx.fOut = s.rx.fOut ∧ t.rx.nFieldsOut = s.rx.nFieldsOut) := by
  obtain ⟨u, hu, h1, h3, h0, hfail⟩ := decodeReportsTheFirstFailedTest (writeQ p s) (decodeOperandsWritten_writeQ p s)
  obtain rfl := Host.Outcome.next.inj ((exec_decode_withQ p s).symm.trans hu)
  refine ⟨h1, h3, fun hcrc hl => ?_, fun herr => ?_⟩
  · obtain ⟨herr, hvalid⟩ := h0 hcrc hl
    exact ⟨herr, hvalid, if_pos hvalid⟩
  · obtain ⟨hvalid, hfmt, hid, hn, hf⟩ := hfail herr
    exact ⟨hvalid, if_neg (by simp [hvalid]), hfmt, hid, hf, hn⟩

/-- Three codes that name the first failed of two tests tell the three cases apart, and are none of them code 2. -/
theorem code_iff_of_first_failed (code : BitVec 3) (checksum unregistered : Prop) (h1 : ¬ checksum → code = 1#3)
    (h3 : checksum → unregistered → code = 3#3) (h0 : checksum → ¬ unregistered → code = 0#3) :
    code ≠ 2#3 ∧ (code = 1#3 ↔ ¬ checksum) ∧ (code = 3#3 ↔ checksum ∧ unregistered) ∧
      (code = 0#3 ↔ checksum ∧ ¬ unregistered) := by
  by_cases hc : checksum
  · by_cases hu : unregistered
    · simp [h3 hc hu, hc, hu]
    · simp [h0 hc hu, hc, hu]
  · simp [h1 hc, hc]

/-- Settles O52: without a repeated row the report is RowNotFound; with one it is that of the decode's first failed
test. -/
theorem failedMatchWritesNoResult : Obligations.FailedMatchWritesNoResult := by
  unfold Obligations.FailedMatchWritesNoResult
  intro s hw
  refine ⟨_, execMatchRows_of_written s hw, ?_⟩
  cases hs : searchRows s.host.capture with
  | none =>
    have hnone := (searchRows_eq_none_iff _).mp hs
    have hno : ¬ ∃ n r, Ref.repeatedAt s.host.capture n r := fun ⟨n, r, h⟩ => hnone n r h
    rw [matchCapture_of_none s hs]
    have herr : (matchFail .rowNotFound (matchBegin s)).rx.rxErr = 2#3 := rfl
    rw [herr]
    exact ⟨fun _ => ⟨rfl, rfl, rfl, rfl, rfl, rfl⟩, iff_of_true rfl hnone,
      iff_of_false (by decide) fun h => hno h.1, iff_of_false (by decide) fun h => hno h.1,
      iff_of_false (by decide) fun h => hno h.1,
      fun h => absurd h (by decide), fun n r h => absurd h (hnone n r)⟩
  | some found =>
    obtain ⟨n, r⟩ := found
    obtain ⟨hat, -⟩ := first_of_searchRows_some _ n r hs
    have hsome : ∃ n r, Ref.repeatedAt s.host.capture n r := ⟨n, r, hat⟩
    have hq : (matchCapture s).rx.q = packRow r s.rx.q := by
      rw [matchCapture_eq_withMatch s n r hs]
      exact checkedThen_acceptByLayout_rx_q _
    obtain ⟨h1, h3, h0, hfail⟩ := withMatch_decode_reports n r (packRow r s.rx.q) s
    rw [← matchCapture_eq_withMatch s n r hs] at h1 h3 h0 hfail
    rw [← hq] at h1 h3 h0
    obtain ⟨hne2, hiff1, hiff3, hiff0⟩ := code_iff_of_first_failed _ _ _ h1 h3 fun hc hl => (h0 hc hl).1
    refine ⟨hfail, iff_of_false hne2 fun h => h n r hat, ?_, ?_, ?_, fun herr => ?_,
      fun n' r' hat' hfirst' k hk => ?_⟩
    · rw [hiff1, and_iff_right hsome]
    · rw [hiff3, and_iff_right hsome]
    · rw [hiff0, and_iff_right hsome]
    · obtain ⟨hcrc, hl⟩ := hiff0.mp herr
      exact (h0 hcrc hl).2
    · have hsame := hs.symm.trans (searchRows_of_first _ n' r' hat' hfirst')
      simp only [Option.some.injEq, Prod.mk.injEq] at hsame
      obtain ⟨-, rfl⟩ := hsame
      rw [hq]
      exact pbit_packRow r _ k (length_of_searchRows_some _ n r hs) hk

end Sys2Proof.Machine

/-!
PROOFS. What one instruction can do (10_state R25, 60_exceptions R236, R242, 43_sequencer R184 to R202): the whole next
state of COMPILE, PLAY and the symbols, the one shape of every receive operation's end, and the list of all effects.
-/

namespace Sys2Proof.Machine

/-! ### COMPILE -/

/-- Settles O34: five copies and more need more than the 338 entries there are. -/
theorem compileRejectsOverflow : Obligations.CompileRejectsOverflow := by
  unfold Obligations.CompileRejectsOverflow
  rintro s n hb hw rfl hn
  rw [exec_compile_of_written s hb hw, compileBurst_of_overflow _ _ (by omega)]
  rfl

/-- All a COMPILE of `n` copies can do once begun: the burst fits and is written, or SequenceOverflowError is raised
(42_compiler R166, R167). -/
theorem compileBurst_cases (n : Nat) (s : State) :
    (84 * n + 2 ≤ 338 ∧ compileBurst n s = writeBurst n s) ∨
      compileBurst n s = raiseError (.sequenceOverflow (84 * n + 2) 338) { s with tx.seqValid := false } := by
  rcases Nat.lt_or_ge 338 (84 * n + 2) with h | h
  · exact .inr (compileBurst_of_overflow n s h)
  · exact .inl ⟨h, compileBurst_of_fits n s h⟩

/-- COMPILE leaves the receive half (10_state R25). -/
@[simp] theorem compileBurst_rx (n : Nat) (s : State) : (compileBurst n s).rx = s.rx := by
  rcases compileBurst_cases n s with ⟨-, h⟩ | h <;> rw [h] <;> rfl

/-- COMPILE leaves the host's side. -/
@[simp] theorem compileBurst_host (n : Nat) (s : State) : (compileBurst n s).host = s.host := by
  rcases compileBurst_cases n s with ⟨-, h⟩ | h <;> rw [h] <;> rfl

/-- COMPILE leaves the line (43_sequencer R200). -/
@[simp] theorem compileBurst_tx_line (n : Nat) (s : State) : (compileBurst n s).tx.line = s.tx.line := by
  rcases compileBurst_cases n s with ⟨-, h⟩ | h <;> rw [h] <;> rfl

/-- COMPILE adds no event to the trace (43_sequencer R200). -/
@[simp] theorem compileBurst_out_trace (n : Nat) (s : State) : (compileBurst n s).out.trace = s.out.trace := by
  rcases compileBurst_cases n s with ⟨-, h⟩ | h <;> rw [h] <;> rfl

/-- COMPILE does not touch the mark of the run (70_reset_and_hazards R266). -/
@[simp] theorem compileBurst_out_runMarked (n : Nat) (s : State) :
    (compileBurst n s).out.runMarked = s.out.runMarked := by
  rcases compileBurst_cases n s with ⟨-, h⟩ | h <;> rw [h] <;> rfl

/-! ### PLAY -/

/-- The state after the launch of PLAY (43_sequencer R184). -/
def playLaunch (s : State) : State :=
  endIfDone { beginTx s with tx.txBusy := true, tx.seqPc := 0#9, tx.phase := .between, tx.timer := 0#16 }

/-- The end test of PLAY field by field (43_sequencer R184, R198). -/
theorem endIfDone_eq (s : State) :
    endIfDone s = { s with tx.txBusy := decide (s.tx.seqPc.toNat < s.tx.seqLen.toNat) && s.tx.txBusy } := by
  unfold endIfDone
  split_ifs with h
  · rw [decide_eq_true h, Bool.true_and]
  · rw [decide_eq_false h, Bool.false_and]

/-- The launch of PLAY field by field: busy unless the sequence is empty (43_sequencer R184, R198). -/
theorem playLaunch_eq (s : State) :
    playLaunch s = { s with tx.txErr := 0#3, tx.seqPc := 0#9, tx.phase := .between, tx.timer := 0#16,
                            tx.txBusy := decide (0 < s.tx.seqLen.toNat) } := by
  rw [playLaunch, endIfDone_eq, Bool.and_true]
  rfl

/-- The sentinel rule is what the machine tests (43_sequencer R202). -/
theorem sequenceSound_iff_sentinelRule (s : State) : sequenceSound s = true ↔ Ref.sentinelRule s := by
  simp only [sequenceSound_iff, Ref.sentinelRule, Option.isSome_iff_ne_none]

/-- PLAY is launched on a valid, sound sequence while the transmit half is idle (43_sequencer R184, R202). -/
theorem exec_play_of_sound (s : State) (hb : s.tx.txBusy = false) (hv : s.tx.seqValid = true)
    (hs : sequenceSound s = true) : exec .play s = .next (playLaunch s) := by
  simp [exec, execPlay, hb, hv, hs, playLaunch]

/-- PLAY of an unsound sequence is refused (43_sequencer R202). -/
theorem exec_play_of_not_sound (s : State) (hb : s.tx.txBusy = false) (hv : s.tx.seqValid = true)
    (hs : sequenceSound s = false) : exec .play s = .refused .sequenceBroken := by
  simp [exec, execPlay, hb, hv, hs]

/-- PLAY without a valid sequence is refused (43_sequencer R199). -/
theorem exec_play_of_not_valid (s : State) (hb : s.tx.txBusy = false) (hv : s.tx.seqValid = false) :
    exec .play s = .refused .sequenceNotValid := by
  simp [exec, execPlay, hb, hv]

/-- PLAY is refused while a PLAY runs (70_reset_and_hazards R271). -/
theorem exec_play_of_busy (s : State) (hb : s.tx.txBusy = true) : exec .play s = .refused .txBusy := by
  simp [exec, execPlay, hb]

/-- All a PLAY can do when it answers a next state. -/
theorem exec_play_next (s t : State) (h : exec .play s = .next t) :
    s.tx.txBusy = false ∧ sequenceSound s = true ∧ t = playLaunch s := by
  cases hb : s.tx.txBusy with
  | true =>
    rw [exec_play_of_busy s hb] at h
    cases h
  | false =>
    cases hv : s.tx.seqValid with
    | false =>
      rw [exec_play_of_not_valid s hb hv] at h
      cases h
    | true =>
      cases hs : sequenceSound s with
      | false =>
        rw [exec_play_of_not_sound s hb hv hs] at h
        cases h
      | true =>
        rw [exec_play_of_sound s hb hv hs] at h
        cases h
        exact ⟨rfl, rfl, rfl⟩

/-- Settles O35: the launch, with the end test on an empty sequence folded in. -/
theorem playStartsTheSequencer : Obligations.PlayStartsTheSequencer := by
  unfold Obligations.PlayStartsTheSequencer
  intro s hb hv hrule
  rw [exec_play_of_sound s hb hv ((sequenceSound_iff_sentinelRule s).mpr hrule), playLaunch_eq]

/-- Settles O36: `SEQ_VALID` is tested first, then the three parts of the sentinel rule. -/
theorem playNeedsASoundSequence : Obligations.PlayNeedsASoundSequence := by
  unfold Obligations.PlayNeedsASoundSequence
  intro s hb
  refine ⟨exec_play_of_not_valid s hb, fun hv hbroken => exec_play_of_not_sound s hb hv ?_⟩
  rw [← Bool.not_eq_true, sequenceSound_iff_sentinelRule]
  rintro ⟨hlen, hnone, hwritten⟩
  rcases hbroken with h | h | ⟨i, hi, h⟩
  · omega
  · exact h hnone
  · exact hwritten i hi h

/-! ### The symbols -/

/-- A whole symbol is its events, its level and the next index (43_sequencer R184, R194, R198). -/
theorem playSymbol_eq_afterSymbol (t : SymbolTiming) (s : State) : playSymbol t s = Ref.afterSymbol t s := by
  rw [playSymbol, execSymbol_eq, completeSymbol, endIfDone_eq, Bool.and_comm]
  rfl

/-- Settles O39: each of the five is a whole symbol of its timing. -/
theorem playedSymbolsLeaveTheRest : Obligations.PlayedSymbolsLeaveTheRest := by
  unfold Obligations.PlayedSymbolsLeaveTheRest
  intro s
  have h (t : SymbolTiming) :
      (.next (playSymbol t s) : Host.Outcome State Fault Refusal) = .next (Ref.afterSymbol t s) :=
    congrArg _ (playSymbol_eq_afterSymbol t s)
  exact ⟨h timingSync, h timingSyncGap, h timingZero, h timingOne, h timingImGap⟩

/-- The abort of PLAY field by field (43_sequencer R193). -/
theorem abortPlay_eq_afterAbort (s : State) : abortPlay s = Ref.afterAbort s := rfl

/-- Settles O41: the three codes have one meaning, the abort. -/
theorem abortingSymbolsLeaveTheRest : Obligations.AbortingSymbolsLeaveTheRest := by
  unfold Obligations.AbortingSymbolsLeaveTheRest
  intro s
  have h : (.next (abortPlay s) : Host.Outcome State Fault Refusal) = .next (Ref.afterAbort s) :=
    congrArg _ (abortPlay_eq_afterAbort s)
  exact ⟨h, h, h⟩

/-! ### How a receive operation ends -/

/-- The registered formats with their field counts (10_state R31, R48). -/
def registeredCount (fmt : BitVec 4) (n : BitVec 3) : Prop := (fmt = 0#4 ∧ n = 2#3) ∨ (fmt = 1#4 ∧ n = 6#3)

/-- How an operation of the receive half that begins in `s` can end in `t`: the transmit half, the host's side and the
trace as before, and either a delivery without an error or one error of its half (10_state R25, 41_codec R148,
60_exceptions R242). -/
structure Received (s t : State) : Prop where
  tx : t.tx = s.tx
  host : t.host = s.host
  trace : t.out.trace = s.out.trace
  runMarked : t.out.runMarked = s.out.runMarked
  mState : t.rx.mState = s.rx.mState ∨ t.rx.mState = 4#3 ∨ t.rx.mState = 5#3
  ends : (t.out.reports = s.out.reports ∧ t.rx.rxErr = 0#3 ∧ registeredCount t.rx.fmtOut t.rx.nFieldsOut) ∨
    ∃ e, errorOfTx e = false ∧ t.out.reports = s.out.reports ++ [e] ∧ t.rx.rxErr = errorCode e ∧
      t.rx.outValid = false

/-- An operation that has begun: no error and nothing valid yet (60_exceptions R243). -/
def Begun (s : State) : Prop := s.rx.rxErr = 0#3 ∧ s.rx.outValid = false

/-- An error of the receive half ends an operation that has begun (60_exceptions R236). -/
theorem received_raiseError (e : ErrorInfo) (s : State) (he : errorOfTx e = false) (hs : Begun s) :
    Received s (raiseError e s) := by
  have h : raiseError e s = { s with rx.rxErr := errorCode e, out.reports := s.out.reports ++ [e] } := by
    simp only [raiseError, he]
  rw [h]
  exact ⟨rfl, rfl, rfl, rfl, .inl rfl, .inr ⟨e, he, rfl, rfl, hs.2⟩⟩

/-- A delivery ends an operation that has begun (41_codec R152). -/
theorem received_deliver (fmt id : BitVec 4) (vs : List Word) (s : State) (hs : Begun s)
    (hn : registeredCount fmt (BitVec.ofNat 3 vs.length)) : Received s (deliver fmt id vs s) :=
  ⟨rfl, rfl, rfl, rfl, .inl rfl, .inl ⟨rfl, hs.1, hn⟩⟩

/-- The formats that have a layout (10_state R48, 41_codec R135). -/
theorem registeredCount_of_layout (fmt : BitVec 4) (l : List FieldDesc) (h : layout fmt = some l) :
    registeredCount fmt (BitVec.ofNat 3 l.length) := by
  revert h
  unfold layout
  split
  · rename_i h0
    rintro ⟨⟩
    exact .inl ⟨BitVec.eq_of_toNat_eq h0, rfl⟩
  · rename_i h1
    rintro ⟨⟩
    exact .inr ⟨BitVec.eq_of_toNat_eq h1, rfl⟩
  · rintro ⟨⟩

/-- The acceptance by the layout registry ends an operation that has begun, either way (41_codec R151, R152). -/
theorem received_acceptByLayout (s : State) (hs : Begun s) : Received s (acceptByLayout s) := by
  cases hl : layout (fmtOf s.rx.q) with
  | none =>
    rw [acceptByLayout_of_none s hl]
    exact received_raiseError _ s rfl hs
  | some l =>
    rw [acceptByLayout_of_some s l hl]
    refine received_deliver _ _ _ s hs ?_
    simpa [unpackFields] using registeredCount_of_layout _ l hl

/-- An operation seen from a state that differs only in the receive registers it has begun on. -/
theorem Received.of_eq {s u t : State} (h : Received u t) (htx : u.tx = s.tx) (hhost : u.host = s.host)
    (hout : u.out = s.out) (hm : u.rx.mState = s.rx.mState) : Received s t := by
  refine ⟨h.tx.trans htx, h.host.trans hhost, ?_, ?_, ?_, ?_⟩
  · rw [h.trace, hout]
  · rw [h.runMarked, hout]
  · rw [← hm]
    exact h.mState
  · rw [← hout]
    exact h.ends

/-- The checksum test ends the operation, or what accepts the packet does (41_codec R148, R149). -/
theorem received_checkedThen (accept : State → State) (s : State) (h : ∀ u, Begun u → Received u (accept u)) :
    Received s (checkedThen accept s) := by
  have hbegun : Begun (computeQCrc (beginRx s)) := ⟨rfl, rfl⟩
  by_cases hcrc : packetCrc s.rx.q = storedCrc s.rx.q
  · rw [checkedThen_of_match accept s hcrc]
    exact (h _ hbegun).of_eq rfl rfl rfl rfl
  · rw [checkedThen_of_mismatch accept s hcrc]
    exact (received_raiseError _ _ rfl hbegun).of_eq rfl rfl rfl rfl

/-- A packet row ends as its acceptance does: the write of `Q` is the receive half's (30_encoding R119; log 7). -/
theorem received_checkedThen_writeQ (accept : State → State) (q : Packet) (s : State)
    (h : ∀ u, Begun u → Received u (accept u)) : Received s (checkedThen accept (writeQ q s)) :=
  (received_checkedThen accept (writeQ q s) h).of_eq rfl rfl rfl rfl

/-- MATCH ends as a decode does, or with RowNotFoundError (44_matcher R206, R210). -/
theorem received_matchCapture (s : State) : Received s (matchCapture s) := by
  cases hs : searchRows s.host.capture with
  | none =>
    rw [matchCapture_of_none s hs]
    exact ⟨rfl, rfl, rfl, rfl, .inr (.inr rfl), .inr ⟨.rowNotFound, rfl, rfl, rfl, rfl⟩⟩
  | some found =>
    rw [matchCapture_eq_withMatch s found.1 found.2 hs]
    have h := received_checkedThen_writeQ acceptByLayout (packRow found.2 s.rx.q) s received_acceptByLayout
    refine ⟨h.tx, h.host, h.trace, h.runMarked, .inr ?_, h.ends⟩
    unfold withMatch
    dsimp only
    split_ifs
    · exact .inl rfl
    · exact .inr rfl

/-! ### All the effects of an instruction -/

/-- The instructions that are played symbols (43_sequencer R185). -/
def isPlayedSymbol (i : Instr) : Prop := i = .sync ∨ i = .syncGap ∨ i = .zero ∨ i = .one ∨ i = .imGap

/-- All an instruction can do to a state when it answers a next one. -/
inductive Effect (i : Instr) (s : State) : State → Prop where
  | unchanged : Effect i s s
  | turnedAway : Effect i s (turnAway s)
  | engine (r : Byte) : Effect i s (putCrc r s)
  | encoded (p : Packet) (idle : s.tx.txBusy = false) : Effect i s (putPacket p (beginTx s))
  | compiled (n : Nat) (idle : s.tx.txBusy = false) : Effect i s (compileBurst n (beginTx s))
  | launched (idle : s.tx.txBusy = false) (sound : sequenceSound s = true) : Effect i s (playLaunch s)
  | played (t : SymbolTiming) (symbol : isPlayedSymbol i) : Effect i s (playSymbol t s)
  | aborted (symbol : encodingOf i = .symbol) : Effect i s (abortPlay s)
  | received (t : State) (ends : Received s t) : Effect i s t

/-- A launch has the effect of its operation or is turned away (70_reset_and_hazards R266). -/
theorem effect_of_launch (i : Instr) (written : Bool) (run : State → State) (s t : State)
    (hrun : Effect i s (run s)) (h : launch written run s = .next t) : Effect i s t := by
  rcases launch_next written run s t h with ⟨-, rfl⟩ | ⟨-, rfl⟩
  · exact hrun
  · exact .turnedAway

/-- A transmit launch has the effect of its operation on an idle half or is turned away (70_reset_and_hazards R266,
R271). -/
theorem effect_of_launchTx (i : Instr) (written : Bool) (run : State → State) (s t : State)
    (hrun : s.tx.txBusy = false → Effect i s (run (beginTx s))) (h : launchTx written run s = .next t) :
    Effect i s t := by
  obtain ⟨hb, ⟨-, rfl⟩ | ⟨-, rfl⟩⟩ := launchTx_next written run s t h
  · exact hrun hb
  · exact .turnedAway

/-- Every instruction that answers a next state has one of the effects. -/
theorem exec_effect (i : Instr) (s t : State) (h : exec i s = .next t) : Effect i s t := by
  cases i
  case opNone => cases h; exact .unchanged
  case crc8 => exact effect_of_launch _ _ _ s t (.engine _) h
  case encode => exact effect_of_launchTx _ _ _ s t (.encoded _) h
  case decode =>
    exact effect_of_launch _ _ _ s t (.received _ (received_checkedThen _ s received_acceptByLayout)) h
  case compile => exact effect_of_launchTx _ _ _ s t (.compiled _) h
  case play =>
    obtain ⟨hb, hs, rfl⟩ := exec_play_next s t h
    exact .launched hb hs
  case matchRows => exact effect_of_launch _ _ _ s t (.received _ (received_matchCapture s)) h
  case opReserved => cases h
  case sync => cases h; exact .played timingSync (by simp [isPlayedSymbol])
  case syncGap => cases h; exact .played timingSyncGap (by simp [isPlayedSymbol])
  case zero => cases h; exact .played timingZero (by simp [isPlayedSymbol])
  case one => cases h; exact .played timingOne (by simp [isPlayedSymbol])
  case imGap => cases h; exact .played timingImGap (by simp [isPlayedSymbol])
  case symReserved5 => cases h; exact .aborted rfl
  case symReserved6 => cases h; exact .aborted rfl
  case noneSym => cases h; exact .aborted rfl
  case pktFmt0 id t r v c =>
    cases h
    exact .received _ (received_checkedThen_writeQ _ _ s fun u hu => received_deliver _ _ _ u hu (.inl ⟨rfl, rfl⟩))
  case pktFmt1 id t1 t2 s1 s2 p v c =>
    cases h
    exact .received _ (received_checkedThen_writeQ _ _ s fun u hu => received_deliver _ _ _ u hu (.inr ⟨rfl, rfl⟩))
  case pktReserved2to3 fmt id payload c | pktReserved4to7 fmt id payload c | pktReserved8to15 fmt id payload c =>
    cases h
    exact .received _ (received_checkedThen_writeQ _ _ s fun u hu => received_raiseError _ u rfl hu)

/-- Settles O46: of all effects only a whole symbol writes the line. -/
theorem onlySymbolsWriteTheLine : Obligations.OnlySymbolsWriteTheLine := by
  unfold Obligations.OnlySymbolsWriteTheLine
  intro i s t h hline
  cases exec_effect i s t h with
  | played _ symbol => exact symbol
  | compiled n _ => exact absurd (compileBurst_tx_line n (beginTx s)) hline
  | launched _ _ => exact absurd (endIfDone_tx_line _) hline
  | received _ ends => exact absurd (congrArg TxHalf.line ends.tx) hline
  | unchanged | turnedAway | engine | encoded | aborted => exact absurd rfl hline

/-- Settles O57: each effect is that of one half. -/
theorem noInstructionChangesBothHalves : Obligations.NoInstructionChangesBothHalves := by
  unfold Obligations.NoInstructionChangesBothHalves
  intro i s t h
  cases exec_effect i s t h with
  | compiled n _ => exact .inr (compileBurst_rx n (beginTx s))
  | launched _ _ => exact .inr (endIfDone_rx _)
  | played tm _ => exact .inr (by rw [playSymbol_eq_afterSymbol]; rfl)
  | received _ ends => exact .inl ends.tx
  | unchanged | turnedAway | engine | encoded | aborted => exact .inr rfl

/-- Settles O56: a transmit error is raised by COMPILE and by an abort, a receive error by the end of a receive
operation; the other effects report nothing. -/
theorem atMostOneErrorPerInstruction : Obligations.AtMostOneErrorPerInstruction := by
  unfold Obligations.AtMostOneErrorPerInstruction
  intro i s t h
  cases exec_effect i s t h with
  | unchanged | turnedAway | engine | encoded => exact .inl rfl
  | launched _ _ => exact .inl (congrArg Outputs.reports (endIfDone_out _))
  | played tm _ => exact .inl (by rw [playSymbol_eq_afterSymbol]; rfl)
  | aborted => exact .inr ⟨_, rfl, fun _ => ⟨rfl, rfl, rfl⟩, fun hrx => nomatch hrx⟩
  | compiled n idle =>
    rcases compileBurst_cases n (beginTx s) with ⟨-, e⟩ | e
    · exact .inl (by rw [e]; rfl)
    · rw [e]
      exact .inr ⟨_, rfl, fun _ => ⟨rfl, idle, rfl⟩, fun hrx => nomatch hrx⟩
  | received _ ends =>
    rcases ends.ends with ⟨hreports, -, -⟩ | ⟨e, hrx, hreports, herr, hvalid⟩
    · exact .inl hreports
    · refine .inr ⟨e, hreports, fun htx => ?_, fun _ => ⟨herr, hvalid, ends.tx⟩⟩
      rw [hrx] at htx
      cases htx

/-! ### The operations and the error registers -/

/-- Settles O53: the meaning of OP_NONE is the state itself. -/
theorem noOperationChangesNothing : Obligations.NoOperationChangesNothing := by
  unfold Obligations.NoOperationChangesNothing
  exact fun s => rfl

/-- Settles O54: the meaning of OP_RESERVED is a refusal that reads no state. -/
theorem reservedOperationIsRefused : Obligations.ReservedOperationIsRefused := by
  unfold Obligations.ReservedOperationIsRefused
  exact fun s => rfl

/-- Every CRC8 answers a next state of the engine alone, or marks the run (40_crc8 R126, 70_reset_and_hazards R266). -/
theorem exec_crc8_next (s : State) :
    ∃ t, exec .crc8 s = .next t ∧ t.tx = s.tx ∧ t.rx = s.rx ∧ t.out.trace = s.out.trace := by
  cases hw : crc8OperandsWritten s with
  | true => exact ⟨_, execCrc8_of_written s hw, rfl, rfl, rfl⟩
  | false => exact ⟨_, launch_of_unwritten _ _ s hw, rfl, rfl, rfl⟩

/-- Settles O55: the first act of an operation overwrites the code, whatever it was. -/
theorem operationsClearTheirErrorRegister : Obligations.OperationsClearTheirErrorRegister := by
  unfold Obligations.OperationsClearTheirErrorRegister
  intro s e
  refine ⟨fun hw => ?encode, fun hw => ?compile, rfl, fun hw => ?decode, fun hw => ?matchRows, ?crc8⟩
  case encode =>
    cases hb : s.tx.txBusy with
    | true => exact (launchTx_of_busy _ _ { s with tx.txErr := e } hb).trans (launchTx_of_busy _ _ s hb).symm
    | false => exact (exec_encode_of_written { s with tx.txErr := e } hb hw).trans (exec_encode_of_written s hb hw).symm
  case compile =>
    cases hb : s.tx.txBusy with
    | true => exact (launchTx_of_busy _ _ { s with tx.txErr := e } hb).trans (launchTx_of_busy _ _ s hb).symm
    | false => exact (exec_compile_of_written { s with tx.txErr := e } hb hw).trans (exec_compile_of_written s hb hw).symm
  case decode => exact (execDecode_of_written { s with rx.rxErr := e } hw).trans (execDecode_of_written s hw).symm
  case matchRows =>
    exact (execMatchRows_of_written { s with rx.rxErr := e } hw).trans (execMatchRows_of_written s hw).symm
  case crc8 =>
    obtain ⟨t, ht, htx, hrx, -⟩ := exec_crc8_next s
    exact ⟨t, ht, by rw [htx], by rw [hrx]⟩

/-! ### Receive operations and a running PLAY -/

/-- MATCH ignores the transmit half (70_reset_and_hazards R270). -/
theorem matchCapture_ignoresTx : IgnoresTx matchCapture := by
  intro s tx
  cases hs : searchRows s.host.capture with
  | none =>
    rw [matchCapture_of_none s hs, matchCapture_of_none { s with tx := tx } hs]
    rfl
  | some found =>
    rw [matchCapture_eq_withMatch s found.1 found.2 hs, matchCapture_eq_withMatch { s with tx := tx } found.1 found.2 hs]
    have h := checkedThen_ignoresTx acceptByLayout acceptByLayout_ignoresTx (writeQ (packRow found.2 s.rx.q) s) tx
    exact congrArg (withMatch found.1 found.2) h

/-- A launch of an operation that ignores the transmit half, adds no event and marks nothing: it leaves both alone, and
with its operands supplied does the same whatever `TX_BUSY` is (70_reset_and_hazards R264, R270). -/
theorem launch_during_play (written : Bool) (run : State → State) (s : State) (busy : Bool) (hignores : IgnoresTx run)
    (htrace : (run s).out.trace = s.out.trace) (hmark : (run s).out.runMarked = s.out.runMarked) :
    ∃ t, launch written run s = .next t ∧ t.tx = s.tx ∧ t.out.trace = s.out.trace ∧
      (written = true → launch written run { s with tx.txBusy := busy } = .next { t with tx.txBusy := busy } ∧
        t.out.runMarked = s.out.runMarked) := by
  cases written with
  | true =>
    have htx := hignores.tx_eq s
    have hrun : run { s with tx.txBusy := busy } = { run s with tx.txBusy := busy } :=
      (hignores s { s.tx with txBusy := busy }).trans
        (congrArg (fun tx : TxHalf => { run s with tx := { tx with txBusy := busy } }) htx.symm)
    exact ⟨run s, rfl, htx, htrace, fun _ => ⟨congrArg _ hrun, hmark⟩⟩
  | false => exact ⟨turnAway s, rfl, rfl, rfl, fun h => nomatch h⟩

/-- Settles O59: the three operations ignore the transmit half. -/
theorem receiveHalfWorksDuringPlay : Obligations.ReceiveHalfWorksDuringPlay := by
  unfold Obligations.ReceiveHalfWorksDuringPlay
  rintro s i - (rfl | rfl | rfl)
  · have h := received_checkedThen acceptByLayout s received_acceptByLayout
    exact launch_during_play (decodeOperandsWritten s) _ s false
      (checkedThen_ignoresTx acceptByLayout acceptByLayout_ignoresTx) h.trace h.runMarked
  · have h := received_matchCapture s
    exact launch_during_play (matchOperandsWritten s) _ s false matchCapture_ignoresTx h.trace h.runMarked
  · exact launch_during_play (crc8OperandsWritten s) (putCrc (crc8 s.host.crcRun s.host.crcInit)) s false
      (fun _ _ => rfl) rfl rfl

end Sys2Proof.Machine

/-!
PROOFS. All a step can do, said once for the sequencer and once for the host's actions, and what follows of every step:
the mark of the run, the line of an idle block (43_sequencer R200), and the invariant (10_state R31, R35, R37, R40,
R47, R50).
-/

namespace Sys2Proof.Machine

open Sys2Proof.Safety

/-! ### All the sequencer can do -/

/-- The sequencer is between two symbols of a running PLAY, with entry `c` at `SEQ_PC` to go on with (43_sequencer R184,
R186). -/
structure AtEntry (s : State) (c : SymCode) : Prop where
  busy : s.tx.txBusy = true
  phase : s.tx.phase = .between
  pc_lt : s.tx.seqPc.toNat < s.tx.seqLen.toNat
  entry : readSeq s.tx.seq s.tx.seqPc.toNat = some c

/-- All the sequencer can do on a turn or in a microsecond when that answers a next state. -/
inductive SequencerMove (s : State) : State → Prop where
  | idle : SequencerMove s s
  | elapses (n : Nat) (busy : s.tx.txBusy = true) : SequencerMove s (elapseN n s)
  | ends (busy : s.tx.txBusy = true) (done : s.tx.seqLen.toNat ≤ s.tx.seqPc.toNat) : SequencerMove s (endIfDone s)
  | plays (c : SymCode) (t : SymbolTiming) (entry : AtEntry s c) (ht : timing c = some t) :
      SequencerMove s (playSymbol t s)
  | begins (c : SymCode) (t : SymbolTiming) (entry : AtEntry s c) (ht : timing c = some t) :
      SequencerMove s (elapse (enterSymbol t s))
  | aborts (c : SymCode) (entry : AtEntry s c) (ht : timing c = none) : SequencerMove s (abortPlay s)

/-- A fetch that gives a code gives the entry at `SEQ_PC` (20_memory R88). -/
theorem entry_of_fetchSymbol (s : State) (c : SymCode) (h : fetchSymbol s = .code c) :
    readSeq s.tx.seq s.tx.seqPc.toNat = some c := by
  unfold fetchSymbol at h
  split at h
  · cases h
  · split at h
    · cases h
      assumption
    · cases h

/-- A turn of the sequencer that answers a next state is one of its moves. -/
theorem sequencerTurn_move (s t : State) (h : (sequencerTurn s).outcome = .next t) : SequencerMove s t := by
  unfold sequencerTurn at h
  split_ifs at h with hb hp hl
  · cases h
    exact .idle
  · cases h
    exact .elapses _ (by simpa using hb)
  · cases h
    exact .ends (by simpa using hb) hl
  · cases hf : fetchSymbol s with
    | code c =>
      rw [hf] at h
      have hat : AtEntry s c :=
        ⟨by simpa using hb, not_not.mp hp, by omega, entry_of_fetchSymbol s c hf⟩
      simp only [Turn.outcome] at h
      cases ht : timing c with
      | some tm =>
        rw [exec_symbol_of_timing c tm ht] at h
        cases h
        exact .plays c tm hat ht
      | none =>
        rw [exec_symbol_of_no_timing c ht] at h
        cases h
        exact .aborts c hat ht
    | fault f =>
      rw [hf] at h
      cases h
    | refused r =>
      rw [hf] at h
      cases h

/-- A microsecond of the sequencer that answers a next state is one of its moves. -/
theorem sequencerTick_move (s t : State) (h : sequencerTick s = .next t) : SequencerMove s t := by
  unfold sequencerTick at h
  split_ifs at h with hb hp hl
  · cases h
    exact .idle
  · cases h
    exact .elapses 1 (by simpa using hb)
  · cases h
    exact .ends (by simpa using hb) hl
  · cases hf : fetchSymbol s with
    | code c =>
      have hat : AtEntry s c :=
        ⟨by simpa using hb, not_not.mp hp, by omega, entry_of_fetchSymbol s c hf⟩
      simp only [hf] at h
      cases ht : timing c with
      | some tm =>
        simp only [ht] at h
        cases h
        exact .begins c tm hat ht
      | none =>
        simp only [ht] at h
        cases h
        exact .aborts c hat ht
    | fault f => simp only [hf, reduceCtorEq] at h
    | refused r => simp only [hf, reduceCtorEq] at h

/-! ### All a step can do -/

/-- A host write of the transmit half: the sequence memory keeps its canonical form, the status and the sequencer's state
stay (10_state R43). -/
structure TxWrite (a b : TxHalf) : Prop where
  wf : SeqMem.wf a.seq = true → SeqMem.wf b.seq = true
  txErr : b.txErr = a.txErr
  txBusy : b.txBusy = a.txBusy
  phase : b.phase = a.phase
  timer : b.timer = a.timer
  line : b.line = a.line

/-- All a host action can do to the state without it when it answers a next state. -/
inductive HostMove (a : HostAction) (s : State) : State → Prop where
  | sequencer (t : State) (move : SequencerMove s t) : HostMove a s t
  | ran (i : Instr) (t : State) (noSymbol : encodingOf i ≠ .symbol) (effect : Effect i s t) : HostMove a s t
  | wrote (tx : TxHalf) (idle : s.tx.txBusy = false) (write : TxWrite s.tx tx) : HostMove a s { s with tx := tx }
  | wroteQ (q : Packet) (w : BitVec 10) : HostMove a s { s with rx.q := q, rx.qWritten := w }
  | presented (host : HostPort) (fits : captureFits s.host.capture = true → captureFits host.capture = true) :
      HostMove a s { s with host := host }
  | reset (action : a = .reset) : HostMove a s (resetEvent s)

/-- A write of a transmit register that succeeds is one of an idle half. -/
theorem hostMove_of_txWrite (a : HostAction) (s t : State) (tx : TxHalf) (h : txWrite s tx = .next t)
    (write : TxWrite s.tx tx) : HostMove a s t := by
  cases hb : s.tx.txBusy with
  | true =>
    rw [txWrite_of_busy s tx hb] at h
    cases h
  | false =>
    rw [txWrite_of_idle s tx hb] at h
    cases h
    exact .wrote tx hb write

/-- A decoded word keeps its encoding (30_encoding R119). -/
theorem encodingOf_decodeWord (w : FetchWord) : encodingOf (decodeWord w) = w.space := by
  rw [encodingOf_eq_space, (encodeOfDecodeIsIdentity w).1]

/-- A host action that answers a next state makes one of the moves. -/
theorem hostTurn_move (a : HostAction) (s t : State) (h : (hostTurn a s).outcome = .next t) : HostMove a s t := by
  cases a
  case pass => exact .sequencer t (sequencerTurn_move s t h)
  case tick => exact .sequencer t (sequencerTick_move s t h)
  case operation c =>
    exact .ran _ t (by rw [encodingOf_decodeWord]; exact fun e => nomatch e) (exec_effect _ s t h)
  case packet p =>
    exact .ran _ t (by rw [encodingOf_decodeWord]; exact fun e => nomatch e) (exec_effect _ s t h)
  case writeSeq i c =>
    exact hostMove_of_txWrite _ s t _ h ⟨fun hwf => writeSeq_wf _ _ c hwf i.isLt, rfl, rfl, rfl, rfl, rfl⟩
  case writeQ i b =>
    cases h
    exact .wroteQ _ _
  case presentRun bytes init =>
    cases h
    exact .presented _ id
  case presentCapture rows =>
    change hostPresentCapture rows s = .next t at h
    unfold hostPresentCapture at h
    split_ifs at h with hfits
    cases h
    exact .presented _ fun _ => hfits
  case reset =>
    cases h
    exact .reset rfl
  all_goals exact hostMove_of_txWrite _ s t _ h ⟨id, rfl, rfl, rfl, rfl, rfl⟩

/-- All a step can do: a move of the sequencer with nothing pending, or the move of the first pending action. -/
theorem step_move (s t : State) (h : step s = .next t) :
    SequencerMove s t ∨ ∃ a rest, s.host.queue = a :: rest ∧ HostMove a (dropAction rest s) t := by
  cases hq : s.host.queue with
  | nil => exact .inl (sequencerTurn_move s t ((step_of_empty_queue s hq).symm.trans h))
  | cons a rest => exact .inr ⟨a, rest, rfl, hostTurn_move a _ t ((step_of_action s a rest hq).symm.trans h)⟩

/-! ### What the sequencer leaves alone -/

/-- The sequencer's work between `s` and `t`: everything but the transmit half and the trace is as before
(10_state R25). -/
structure SequencerFrame (s t : State) : Prop where
  rx : t.rx = s.rx
  crc : t.crc = s.crc
  host : t.host = s.host
  reports : t.out.reports = s.out.reports
  runMarked : t.out.runMarked = s.out.runMarked

/-- Two pieces of the sequencer's work in a row. -/
theorem SequencerFrame.trans {s t u : State} (h : SequencerFrame s t) (h' : SequencerFrame t u) :
    SequencerFrame s u :=
  ⟨h'.rx.trans h.rx, h'.crc.trans h.crc, h'.host.trans h.host, h'.reports.trans h.reports,
    h'.runMarked.trans h.runMarked⟩

/-- The completion of a symbol is the sequencer's work. -/
theorem completeSymbol_frame (s : State) : SequencerFrame s (completeSymbol s) := by
  constructor <;> simp

/-- The begin of a low phase is the sequencer's work. -/
theorem enterLow_frame (t : SymbolTiming) (s : State) : SequencerFrame s (enterLow t s) := by
  unfold enterLow
  split
  · exact completeSymbol_frame s
  · exact ⟨rfl, rfl, rfl, rfl, rfl⟩

/-- The begin of a symbol is the sequencer's work. -/
theorem enterSymbol_frame (t : SymbolTiming) (s : State) : SequencerFrame s (enterSymbol t s) := by
  unfold enterSymbol
  split
  · exact enterLow_frame t s
  · exact ⟨rfl, rfl, rfl, rfl, rfl⟩

/-- A microsecond is the sequencer's work. -/
theorem elapse_frame (s : State) : SequencerFrame s (elapse s) := by
  have hcount : SequencerFrame s (countDown s) := ⟨rfl, rfl, rfl, rfl, rfl⟩
  unfold elapse
  split
  · exact ⟨rfl, rfl, rfl, rfl, rfl⟩
  · split
    · exact hcount.trans (enterLow_frame _ _)
    · exact hcount
  · split
    · exact hcount.trans (completeSymbol_frame _)
    · exact hcount

/-- Microseconds are the sequencer's work. -/
theorem elapseN_frame (n : Nat) (s : State) : SequencerFrame s (elapseN n s) := by
  induction n generalizing s with
  | zero => exact ⟨rfl, rfl, rfl, rfl, rfl⟩
  | succ n ih => exact (elapse_frame s).trans (ih _)

/-- A whole symbol is the sequencer's work. -/
theorem playSymbol_frame (t : SymbolTiming) (s : State) : SequencerFrame s (playSymbol t s) := by
  rw [playSymbol_eq_afterSymbol]
  exact ⟨rfl, rfl, rfl, rfl, rfl⟩

/-- No move of the sequencer touches the receive half or the host's side (10_state R25). -/
theorem SequencerMove.rx_host {s t : State} (h : SequencerMove s t) : t.rx = s.rx ∧ t.host = s.host := by
  cases h with
  | idle => exact ⟨rfl, rfl⟩
  | elapses n => exact ⟨(elapseN_frame n s).rx, (elapseN_frame n s).host⟩
  | ends => exact ⟨endIfDone_rx s, endIfDone_host s⟩
  | plays c t => exact ⟨(playSymbol_frame t s).rx, (playSymbol_frame t s).host⟩
  | begins c t =>
    have hframe := (enterSymbol_frame t s).trans (elapse_frame _)
    exact ⟨hframe.rx, hframe.host⟩
  | aborts => exact ⟨rfl, rfl⟩

/-! ### The mark of the run -/

/-- No move of the sequencer touches the mark (70_reset_and_hazards R266). -/
theorem SequencerMove.runMarked {s t : State} (h : SequencerMove s t) : t.out.runMarked = s.out.runMarked := by
  cases h with
  | idle => rfl
  | elapses n => exact (elapseN_frame n s).runMarked
  | ends => exact congrArg Outputs.runMarked (endIfDone_out s)
  | plays c t => exact (playSymbol_frame t s).runMarked
  | begins c t => exact ((enterSymbol_frame t s).trans (elapse_frame _)).runMarked
  | aborts => rfl

/-- An effect marks the run only where it turns a launch away (70_reset_and_hazards R266). -/
theorem Effect.runMarked {i : Instr} {s t : State} (h : Effect i s t) :
    t = turnAway s ∨ t.out.runMarked = s.out.runMarked := by
  cases h with
  | turnedAway => exact .inl rfl
  | compiled n => exact .inr (compileBurst_out_runMarked n (beginTx s))
  | launched => exact .inr (congrArg Outputs.runMarked (endIfDone_out _))
  | played t => exact .inr (playSymbol_frame t s).runMarked
  | received _ ends => exact .inr ends.runMarked
  | unchanged | engine | encoded | aborted => exact .inr rfl

/-- No host action takes a mark away (60_exceptions R248). -/
theorem HostMove.keeps_mark {a : HostAction} {s t : State} (h : HostMove a s t) (hm : s.out.runMarked = true) :
    t.out.runMarked = true := by
  cases h with
  | sequencer _ move => exact move.runMarked.trans hm
  | ran i _ _ effect =>
    rcases effect.runMarked with rfl | h
    · rfl
    · exact h.trans hm
  | wrote | wroteQ | presented | reset => exact hm

/-- No step takes a mark away: "for the whole run" (60_exceptions R248). -/
theorem step_keeps_mark (s t : State) (h : step s = .next t) (hm : s.out.runMarked = true) :
    t.out.runMarked = true := by
  rcases step_move s t h with move | ⟨a, rest, -, move⟩
  · exact move.runMarked.trans hm
  · exact move.keeps_mark hm

/-! ### Launches outside the contract -/

/-- An operand of ENCODE is missing when a register it reads was not written (70_reset_and_hazards R264). -/
theorem encodeOperandsWritten_eq_false_iff (s : State) :
    encodeOperandsWritten s = false ↔ s.tx.written.fmtIn = false ∨ s.tx.written.idIn = false ∨
      ∃ l m, layout (s.tx.fmtIn.setWidth 4) = some l ∧ m < l.length ∧ s.tx.written.fIn.getLsbD m = false := by
  rw [← Bool.not_eq_true, encodeOperandsWritten_iff]
  simp only [not_and_or, not_forall, Bool.not_eq_true, exists_prop]

/-- An operand of COMPILE is missing when `REPEATS_IN` or a byte of `P` was not written (70_reset_and_hazards R264). -/
theorem compileOperandsWritten_eq_false_iff (s : State) :
    compileOperandsWritten s = false ↔
      s.tx.written.repeatsIn = false ∨ ∃ i < 10, s.tx.written.p.getLsbD i = false := by
  rw [← Bool.not_eq_true, compileOperandsWritten_iff]
  simp only [not_and_or, not_forall, Bool.not_eq_true, exists_prop]

/-- An operand of DECODE is missing when a byte of `Q` was not written (70_reset_and_hazards R264). -/
theorem decodeOperandsWritten_eq_false_iff (s : State) :
    decodeOperandsWritten s = false ↔ ∃ i < 10, s.rx.qWritten.getLsbD i = false := by
  rw [← Bool.not_eq_true, decodeOperandsWritten_iff]
  simp only [not_forall, Bool.not_eq_true, exists_prop]

/-- An operation reads an unwritten operand exactly when the machine finds its operands not written
(70_reset_and_hazards R264, R266). -/
theorem readsUnwritten_iff (c : OpCode) (s : State) :
    Ref.readsUnwritten c s ↔
      (c = 1#3 ∧ crc8OperandsWritten s = false) ∨ (c = 2#3 ∧ encodeOperandsWritten s = false) ∨
      (c = 3#3 ∧ decodeOperandsWritten s = false) ∨ (c = 4#3 ∧ compileOperandsWritten s = false) ∨
      (c = 6#3 ∧ matchOperandsWritten s = false) := by
  rw [encodeOperandsWritten_eq_false_iff, decodeOperandsWritten_eq_false_iff, compileOperandsWritten_eq_false_iff]
  rfl

/-- Outside the contract for want of an operand a launch is turned away (70_reset_and_hazards R266). -/
theorem exec_of_readsUnwritten (s : State) (c : OpCode) (h : Ref.readsUnwritten c s)
    (hb : c = 2#3 ∨ c = 4#3 → s.tx.txBusy = false) :
    exec (decodeWord (.operation c)) s = .next (Ref.turnedAway s) := by
  rcases (readsUnwritten_iff c s).mp h with ⟨rfl, hw⟩ | ⟨rfl, hw⟩ | ⟨rfl, hw⟩ | ⟨rfl, hw⟩ | ⟨rfl, hw⟩
  · exact launch_of_unwritten _ _ s hw
  · exact launchTx_of_unwritten _ _ s (hb (.inl rfl)) hw
  · exact launch_of_unwritten _ _ s hw
  · exact launchTx_of_unwritten _ _ s (hb (.inr rfl)) hw
  · exact launch_of_unwritten _ _ s hw

/-- With its operands written a launch completes and marks nothing (70_reset_and_hazards R264). -/
theorem exec_marks_nothing_of_written (s : State) (c : OpCode)
    (hc : c = 1#3 ∨ c = 2#3 ∨ c = 3#3 ∨ c = 4#3 ∨ c = 6#3) (h : ¬ Ref.readsUnwritten c s)
    (hb : c = 2#3 ∨ c = 4#3 → s.tx.txBusy = false) :
    ∃ t, exec (decodeWord (.operation c)) s = .next t ∧ t.out.runMarked = s.out.runMarked := by
  rw [readsUnwritten_iff] at h
  rcases hc with rfl | rfl | rfl | rfl | rfl
  · exact ⟨_, execCrc8_of_written s (by simpa using h), rfl⟩
  · exact ⟨_, exec_encode_of_written s (hb (.inl rfl)) (by simpa using h), rfl⟩
  · exact ⟨_, execDecode_of_written s (by simpa using h),
      (received_checkedThen acceptByLayout s received_acceptByLayout).runMarked⟩
  · exact ⟨_, exec_compile_of_written s (hb (.inr rfl)) (by simpa using h), compileBurst_out_runMarked _ (beginTx s)⟩
  · exact ⟨_, execMatchRows_of_written s (by simpa using h), (received_matchCapture s).runMarked⟩

/-- The step inside the contract ends where a step is no next state (70_reset_and_hazards R266). -/
theorem contractStep_of_refused (s : State) (r : Refusal) (h : step s = .refused r) : contractStep s = none := by
  simp only [contractStep, h]

/-- The step inside the contract is the step that leaves the run unmarked (70_reset_and_hazards R266). -/
theorem contractStep_eq_some_iff (s t : State) :
    contractStep s = some t ↔ step s = .next t ∧ t.out.runMarked = false := by
  cases hs : step s with
  | next u =>
    rw [contractStep_of_next s u hs]
    cases hm : u.out.runMarked with
    | false =>
      simp only [Bool.false_eq_true, if_false, Option.some.injEq, Host.Outcome.next.injEq]
      exact ⟨fun e => ⟨e, e ▸ hm⟩, fun e => e.1⟩
    | true =>
      simp only [if_true, reduceCtorEq, Host.Outcome.next.injEq, false_iff]
      rintro ⟨rfl, h⟩
      rw [hm] at h
      cases h
  | fault f => simp [contractStep, hs]
  | refused r => simp [contractStep, hs]

/-- Settles O37: a busy half refuses, a launch without its operands is turned away, and the step inside the contract is the
step whose run stays unmarked. -/
theorem launchesOutsideTheContractHaveNoEffect : Obligations.LaunchesOutsideTheContractHaveNoEffect := by
  unfold Obligations.LaunchesOutsideTheContractHaveNoEffect
  have hbusy (s : State) (hb : s.tx.txBusy = true) :
      exec .encode s = .refused .txBusy ∧ exec .compile s = .refused .txBusy ∧ exec .play s = .refused .txBusy :=
    ⟨launchTx_of_busy _ _ s hb, launchTx_of_busy _ _ s hb, exec_play_of_busy s hb⟩
  refine ⟨hbusy, exec_of_readsUnwritten, exec_marks_nothing_of_written, step_keeps_mark, ?_, contractStep_eq_some_iff⟩
  intro s c rest hq hread
  have hstep : step s = exec (decodeWord (.operation c)) (dropAction rest s) := step_of_action s _ rest hq
  by_cases hc : (c = 2#3 ∨ c = 4#3) ∧ s.tx.txBusy = true
  · obtain ⟨hcode, hb⟩ := hc
    obtain ⟨hencode, hcompile, -⟩ := hbusy (dropAction rest s) hb
    rcases hcode with rfl | rfl
    · exact contractStep_of_refused s _ (hstep.trans hencode)
    · exact contractStep_of_refused s _ (hstep.trans hcompile)
  · have hidle : c = 2#3 ∨ c = 4#3 → s.tx.txBusy = false := fun h => by
      rw [← Bool.not_eq_true]
      exact fun hb => hc ⟨h, hb⟩
    rw [contractStep_of_next s _ (hstep.trans (exec_of_readsUnwritten (dropAction rest s) c hread hidle))]
    rfl

/-! ### The line of an idle block -/

/-- Outside a PLAY the sequencer does not move (60_exceptions R254). -/
theorem SequencerMove.eq_of_idle {s t : State} (h : SequencerMove s t) (hb : s.tx.txBusy = false) : t = s := by
  cases h with
  | idle => rfl
  | elapses _ busy | ends busy =>
    rw [hb] at busy
    cases busy
  | plays _ _ entry | begins _ _ entry | aborts _ entry =>
    have busy := entry.busy
    rw [hb] at busy
    cases busy

/-- An instruction that is no symbol leaves the line and the trace (43_sequencer R200). -/
theorem Effect.line_trace {i : Instr} {s t : State} (h : Effect i s t) (hi : encodingOf i ≠ .symbol) :
    t.tx.line = s.tx.line ∧ t.out.trace = s.out.trace := by
  cases h with
  | compiled n => exact ⟨compileBurst_tx_line n (beginTx s), compileBurst_out_trace n (beginTx s)⟩
  | launched => exact ⟨endIfDone_tx_line _, congrArg Outputs.trace (endIfDone_out _)⟩
  | received _ ends => exact ⟨congrArg TxHalf.line ends.tx, ends.trace⟩
  | played _ symbol => rcases symbol with rfl | rfl | rfl | rfl | rfl <;> exact absurd rfl hi
  | aborted symbol => exact absurd symbol hi
  | unchanged | turnedAway | engine | encoded => exact ⟨rfl, rfl⟩

/-- Settles O47: an idle block's sequencer does not move, no instruction the host presents is a symbol, and no host write
touches the line. -/
theorem lineKeepsItsLevelOutsidePlay : Obligations.LineKeepsItsLevelOutsidePlay := by
  unfold Obligations.LineKeepsItsLevelOutsidePlay
  intro s t hb hreset hstep
  rcases step_move s t hstep with move | ⟨a, rest, hq, move⟩
  · rw [move.eq_of_idle hb]
    exact ⟨rfl, rfl⟩
  · cases move with
    | sequencer _ move =>
      rw [move.eq_of_idle hb]
      exact ⟨rfl, rfl⟩
    | ran i _ noSymbol effect => exact effect.line_trace noSymbol
    | wrote _ _ write => exact ⟨write.line, rfl⟩
    | wroteQ | presented => exact ⟨rfl, rfl⟩
    | reset action =>
      rw [action] at hq
      exact absurd hq (hreset rest)

/-! ### The invariant of each half -/

/-- The invariant's clauses about the transmit half. -/
structure TxInv (s : State) : Prop where
  wf : SeqMem.wf s.tx.seq = true
  txErr : s.tx.txErr = 0#3 ∨ s.tx.txErr = 4#3 ∨ s.tx.txErr = 5#3
  play : playInv s
  phase : phaseInv s

/-- The invariant's clauses about the receive half. -/
structure RxInv (s : State) : Prop where
  rxErr : s.rx.rxErr.toNat ≤ 3
  mState : s.rx.mState.toNat ≤ 5
  result : resultInv s

/-- The invariant is that of each half and of the presented capture. -/
theorem inv_iff (s : State) : Inv s ↔ TxInv s ∧ RxInv s ∧ captureFits s.host.capture = true := by
  constructor
  · rintro ⟨hwf, hterr, hrerr, hm, hfits, hplay, hphase, hresult⟩
    exact ⟨⟨hwf, hterr, hplay, hphase⟩, ⟨hrerr, hm, hresult⟩, hfits⟩
  · rintro ⟨⟨hwf, hterr, hplay, hphase⟩, ⟨hrerr, hm, hresult⟩, hfits⟩
    exact ⟨hwf, hterr, hrerr, hm, hfits, hplay, hphase, hresult⟩

/-- The transmit clauses speak of the transmit half alone. -/
theorem TxInv.of_tx_eq {s t : State} (h : TxInv s) (e : t.tx = s.tx) : TxInv t := by
  obtain ⟨tx, rx, crc, host, out⟩ := t
  cases e
  exact ⟨h.wf, h.txErr, h.play, h.phase⟩

/-- The receive clauses speak of the receive half alone. -/
theorem RxInv.of_rx_eq {s t : State} (h : RxInv s) (e : t.rx = s.rx) : RxInv t := by
  obtain ⟨tx, rx, crc, host, out⟩ := t
  cases e
  exact ⟨h.rxErr, h.mState, h.result⟩

/-- Settles O10: an empty memory, no error, nothing running, nothing valid, an empty capture. -/
theorem resetMeetsTheInvariant : Obligations.ResetMeetsTheInvariant := by
  unfold Obligations.ResetMeetsTheInvariant
  refine (inv_iff _).mpr ⟨⟨reset_seq_wf, .inl rfl, ?_, ?_⟩, ⟨by decide, by decide, ?_⟩, captureFits_nil⟩
  · exact fun h => nomatch h
  · exact ⟨iff_of_true rfl rfl, fun _ => rfl, fun h => (nomatch h), fun h => nomatch h⟩
  · exact fun h => nomatch h

/-! ### The receive half keeps its clauses -/

/-- The codes of the receive errors are 1 to 3 (10_state R40). -/
theorem receive_errorCode_le (e : ErrorInfo) (h : errorOfTx e = false) : (errorCode e).toNat ≤ 3 := by
  cases e with
  | checksum | rowNotFound | unknownFormat => simp [errorCode]
  | sequenceOverflow | playbackSequencing => cases h

/-- The end of a receive operation keeps the receive clauses: a delivery has a registered format and count, an error a
receive code and nothing valid (10_state R31, R40, R41). -/
theorem Received.rxInv {s t : State} (h : Received s t) (hs : RxInv s) : RxInv t := by
  have hm : t.rx.mState.toNat ≤ 5 := by
    rcases h.mState with e | e | e
    · rw [e]
      exact hs.mState
    · rw [e]
      decide
    · rw [e]
      decide
  rcases h.ends with ⟨-, herr, hcount⟩ | ⟨e, hrx, -, herr, hvalid⟩
  · exact ⟨by rw [herr]; decide, hm, fun _ => ⟨herr, hcount⟩⟩
  · refine ⟨?_, hm, fun hv => ?_⟩
    · rw [herr]
      exact receive_errorCode_le e hrx
    · rw [hvalid] at hv
      cases hv

/-! ### The transmit half keeps its clauses -/

/-- What holds while PLAY runs, whatever part of a symbol the sequencer is in. -/
structure Running (s : State) : Prop where
  wf : SeqMem.wf s.tx.seq = true
  txErr : s.tx.txErr = 0#3 ∨ s.tx.txErr = 4#3 ∨ s.tx.txErr = 5#3
  busy : s.tx.txBusy = true
  pc_lt : s.tx.seqPc.toNat < s.tx.seqLen.toNat
  sound : sequenceSound s = true

/-- A busy transmit half runs a sound sequence (10_state R35, R37). -/
theorem TxInv.running {s : State} (h : TxInv s) (hb : s.tx.txBusy = true) : Running s :=
  ⟨h.wf, h.txErr, hb, (h.play hb).1, (h.play hb).2⟩

/-- A phase runs only during PLAY (10_state R50). -/
theorem TxInv.busy_of_phase {s : State} (h : TxInv s) (hp : s.tx.phase ≠ .between) : s.tx.txBusy = true := by
  obtain ⟨-, hidle, -, -⟩ := h.phase
  by_contra hb
  exact hp (hidle (by simpa using hb))

/-- Soundness speaks of the memory and the length alone (43_sequencer R202). -/
theorem sequenceSound_congr (s t : State) (hseq : t.tx.seq = s.tx.seq) (hlen : t.tx.seqLen = s.tx.seqLen) :
    sequenceSound t = sequenceSound s := by
  simp only [sequenceSound, hseq, hlen]

/-- A completed symbol keeps the transmit clauses: PLAY goes on only below `SEQ_LEN` (43_sequencer R184, R198). -/
theorem completeSymbol_txInv (s : State) (h : Running s) : TxInv (completeSymbol s) := by
  refine ⟨by simpa using h.wf, by simpa using h.txErr, fun hb => ?_, by simp [phaseInv]⟩
  rw [completeSymbol_tx_txBusy, Bool.and_eq_true, decide_eq_true_eq] at hb
  exact ⟨by simpa using hb.1, (sequenceSound_congr s _ (by simp) (by simp)).trans h.sound⟩

/-- The begin of a low phase keeps the transmit clauses (10_state R50). -/
theorem enterLow_txInv (t : SymbolTiming) (s : State) (h : Running s) : TxInv (enterLow t s) := by
  unfold enterLow
  split_ifs with hlow
  · exact completeSymbol_txInv s h
  · exact ⟨h.wf, h.txErr, fun _ => ⟨h.pc_lt, h.sound⟩, by simp [phaseInv, hlow, h.busy]⟩

/-- The begin of a symbol keeps the transmit clauses (10_state R50). -/
theorem enterSymbol_txInv (t : SymbolTiming) (s : State) (h : Running s) : TxInv (enterSymbol t s) := by
  unfold enterSymbol
  split_ifs with hhigh
  · exact enterLow_txInv t s h
  · exact ⟨h.wf, h.txErr, fun _ => ⟨h.pc_lt, h.sound⟩, by simp [phaseInv, hhigh, h.busy]⟩

/-- A microsecond that does not end its phase keeps the transmit clauses (10_state R50). -/
theorem countDown_txInv (s : State) (h : TxInv s) (hp : s.tx.phase ≠ .between) (ht : s.tx.timer ≠ 1#16) :
    TxInv (countDown s) := by
  obtain ⟨-, hidle, hhigh, hlow⟩ := h.phase
  have htimer : s.tx.timer - 1#16 ≠ 0#16 := sub_ne_zero.mpr ht
  exact ⟨h.wf, h.txErr, h.play, iff_of_false hp htimer, hidle, hhigh, hlow⟩

/-- A microsecond keeps the transmit clauses (10_state R50). -/
theorem elapse_txInv (s : State) (h : TxInv s) : TxInv (elapse s) := by
  have hcount (hp : s.tx.phase ≠ .between) : Running (countDown s) := by
    have hrun := h.running (h.busy_of_phase hp)
    exact ⟨hrun.wf, hrun.txErr, hrun.busy, hrun.pc_lt, hrun.sound⟩
  unfold elapse
  split
  · exact h
  · rename_i hp
    have hne : s.tx.phase ≠ .between := by rw [hp]; decide
    split_ifs with ht
    · exact enterLow_txInv _ _ (hcount hne)
    · exact countDown_txInv s h hne ht
  · rename_i hp
    have hne : s.tx.phase ≠ .between := by rw [hp]; decide
    split_ifs with ht
    · exact completeSymbol_txInv _ (hcount hne)
    · exact countDown_txInv s h hne ht

/-- Microseconds keep the transmit clauses. -/
theorem elapseN_txInv (n : Nat) (s : State) (h : TxInv s) : TxInv (elapseN n s) := by
  induction n generalizing s with
  | zero => exact h
  | succ n ih => exact ih _ (elapse_txInv s h)

/-- A whole symbol keeps the transmit clauses (43_sequencer R184). -/
theorem playSymbol_txInv (t : SymbolTiming) (s : State) (h : Running s) : TxInv (playSymbol t s) := by
  rw [playSymbol, execSymbol_eq]
  exact completeSymbol_txInv _ ⟨h.wf, h.txErr, h.busy, h.pc_lt, h.sound⟩

/-- The sequencer keeps the transmit clauses. -/
theorem SequencerMove.txInv {s t : State} (h : SequencerMove s t) (hs : TxInv s) : TxInv t := by
  cases h with
  | idle => exact hs
  | elapses n => exact elapseN_txInv n s hs
  | ends busy done => exact absurd (hs.running busy).pc_lt (by omega)
  | plays c t entry => exact playSymbol_txInv t s (hs.running entry.busy)
  | begins c t entry => exact elapse_txInv _ (enterSymbol_txInv t s (hs.running entry.busy))
  | aborts c entry =>
    obtain ⟨htimer, -, hhigh, hlow⟩ := hs.phase
    exact ⟨hs.wf, .inr (.inr rfl), fun hb => (nomatch hb), htimer, fun _ => entry.phase, hhigh, hlow⟩

/-- A COMPILE of an idle half keeps the transmit clauses: a burst that fits is written below `CAP` (42_compiler R166,
R167). -/
theorem compileBurst_txInv (n : Nat) (s : State) (hb : s.tx.txBusy = false) (h : TxInv s) :
    TxInv (compileBurst n s) := by
  rcases compileBurst_cases n s with ⟨hfits, e⟩ | e
  · have hlen : 0 + (burst s.tx.p n).length ≤ Config.cap := by
      rw [burst_length, burstEntries_eq, Nat.zero_add]
      exact hfits
    rw [e]
    exact ⟨writeSeqRun_wf _ 0 _ h.wf hlen, h.txErr, fun hbusy => by simp [hb] at hbusy, h.phase⟩
  · rw [e]
    exact ⟨h.wf, .inr (.inl rfl), fun hbusy => by simp [hb] at hbusy, h.phase⟩

/-- The launch of PLAY on a sound sequence keeps the transmit clauses (43_sequencer R184). -/
theorem playLaunch_txInv (s : State) (hs : sequenceSound s = true) (h : TxInv s) : TxInv (playLaunch s) := by
  rw [playLaunch_eq]
  refine ⟨h.wf, .inl rfl, fun hb => ⟨?_, hs⟩, iff_of_true rfl rfl, fun _ => rfl, fun hp => (nomatch hp),
    fun hp => nomatch hp⟩
  exact of_decide_eq_true hb

/-- The effects of an instruction the host presents keep the transmit clauses. -/
theorem Effect.txInv {i : Instr} {s t : State} (h : Effect i s t) (hi : encodingOf i ≠ .symbol) (hs : TxInv s) :
    TxInv t := by
  have hbegin : TxInv (beginTx s) := ⟨hs.wf, .inl rfl, hs.play, hs.phase⟩
  cases h with
  | unchanged | turnedAway | engine => exact hs.of_tx_eq rfl
  | encoded p => exact ⟨hs.wf, .inl rfl, hs.play, hs.phase⟩
  | compiled n idle => exact compileBurst_txInv n (beginTx s) idle hbegin
  | launched idle sound => exact playLaunch_txInv s sound hs
  | played _ symbol => rcases symbol with rfl | rfl | rfl | rfl | rfl <;> exact absurd rfl hi
  | aborted symbol => exact absurd symbol hi
  | received _ ends => exact hs.of_tx_eq ends.tx

/-! ### Every step keeps the invariant -/

/-- An instruction reads the host's operands and leaves them, and ends a receive operation or leaves the receive half
(10_state R25). -/
theorem Effect.host_rx {i : Instr} {s t : State} (h : Effect i s t) :
    t.host = s.host ∧ (t.rx = s.rx ∨ Received s t) := by
  cases h with
  | compiled n => exact ⟨compileBurst_host n (beginTx s), .inl (compileBurst_rx n (beginTx s))⟩
  | launched => exact ⟨endIfDone_host _, .inl (endIfDone_rx _)⟩
  | played t => exact ⟨(playSymbol_frame t s).host, .inl (playSymbol_frame t s).rx⟩
  | received _ ends => exact ⟨ends.host, .inr ends⟩
  | unchanged | turnedAway | engine | encoded | aborted => exact ⟨rfl, .inl rfl⟩

/-- The sequencer's moves keep the invariant. -/
theorem SequencerMove.inv {s t : State} (h : SequencerMove s t) (hs : Inv s) : Inv t := by
  obtain ⟨htx, hrx, hfits⟩ := (inv_iff s).mp hs
  obtain ⟨erx, ehost⟩ := h.rx_host
  exact (inv_iff t).mpr ⟨h.txInv htx, hrx.of_rx_eq erx, by rw [ehost]; exact hfits⟩

/-- The host's actions keep the invariant. -/
theorem HostMove.inv {a : HostAction} {s t : State} (h : HostMove a s t) (hs : Inv s) : Inv t := by
  obtain ⟨htx, hrx, hfits⟩ := (inv_iff s).mp hs
  cases h with
  | sequencer _ move => exact move.inv hs
  | ran i _ noSymbol effect =>
    obtain ⟨ehost, erx⟩ := effect.host_rx
    refine (inv_iff t).mpr ⟨effect.txInv noSymbol htx, ?_, by rw [ehost]; exact hfits⟩
    rcases erx with e | ends
    · exact hrx.of_rx_eq e
    · exact ends.rxInv hrx
  | wrote tx idle write =>
    refine (inv_iff _).mpr ⟨⟨write.wf htx.wf, ?_, fun hb => ?_, ?_⟩, hrx.of_rx_eq rfl, hfits⟩
    · rw [write.txErr]
      exact htx.txErr
    · rw [write.txBusy, idle] at hb
      cases hb
    · have hphase := htx.phase
      simp only [phaseInv] at hphase ⊢
      rwa [write.phase, write.timer, write.txBusy, write.line]
  | wroteQ q w => exact (inv_iff _).mpr ⟨htx.of_tx_eq rfl, ⟨hrx.rxErr, hrx.mState, hrx.result⟩, hfits⟩
  | presented host fits => exact (inv_iff _).mpr ⟨htx.of_tx_eq rfl, hrx.of_rx_eq rfl, fits hfits⟩
  | reset =>
    obtain ⟨htx0, hrx0, -⟩ := (inv_iff _).mp resetMeetsTheInvariant
    exact (inv_iff _).mpr ⟨htx0.of_tx_eq rfl, hrx0.of_rx_eq rfl, captureFits_nil⟩

/-- The invariant does not look at the pending actions. -/
theorem inv_dropAction (rest : List HostAction) (s : State) : Inv (dropAction rest s) ↔ Inv s := Iff.rfl

/-- Settles O11: each move of the sequencer and of the host keeps it. -/
theorem everyStepKeepsTheInvariant : Obligations.EveryStepKeepsTheInvariant := by
  unfold Obligations.EveryStepKeepsTheInvariant
  intro s t hs hstep
  rcases step_move s t hstep with move | ⟨a, rest, -, move⟩
  · exact move.inv hs
  · exact move.inv ((inv_dropAction rest s).mpr hs)

/-! ### No fetch goes wrong -/

/-- A running PLAY has a written entry below `CAP` at `SEQ_PC` (20_memory R88, 43_sequencer R202). -/
theorem Running.fetch {s : State} (h : Running s) :
    ∃ c, readSeq s.tx.seq s.tx.seqPc.toNat = some c ∧ s.tx.seqPc.toNat < 338 ∧ fetchSymbol s = .code c := by
  obtain ⟨hlen, -, hwritten⟩ := (sequenceSound_iff s).mp h.sound
  obtain ⟨c, hc⟩ := Option.isSome_iff_exists.mp (hwritten _ h.pc_lt)
  have hlt : s.tx.seqPc.toNat < 338 := by have := h.pc_lt; omega
  have hcap : ¬ Config.cap ≤ s.tx.seqPc.toNat := by simpa [Config.cap] using hlt
  exact ⟨c, hc, hlt, by simp only [fetchSymbol, hcap, if_false, hc]⟩

/-- The sequencer's turn always answers a next state (43_sequencer R196). -/
theorem sequencerTurn_next (s : State) (h : TxInv s) : ∃ t, (sequencerTurn s).outcome = .next t := by
  unfold sequencerTurn
  split_ifs with hb hp hl
  · exact ⟨_, rfl⟩
  · exact ⟨_, rfl⟩
  · exact ⟨_, rfl⟩
  · obtain ⟨c, -, -, hf⟩ := (h.running (by simpa using hb)).fetch
    rw [hf]
    cases ht : timing c with
    | some t => exact ⟨_, exec_symbol_of_timing c t ht s⟩
    | none => exact ⟨_, exec_symbol_of_no_timing c ht s⟩

/-- A microsecond of the sequencer always answers a next state (43_sequencer R196). -/
theorem sequencerTick_next (s : State) (h : TxInv s) : ∃ t, sequencerTick s = .next t := by
  unfold sequencerTick
  split_ifs with hb hp hl
  · exact ⟨_, rfl⟩
  · exact ⟨_, rfl⟩
  · exact ⟨_, rfl⟩
  · obtain ⟨c, -, -, hf⟩ := (h.running (by simpa using hb)).fetch
    simp only [hf]
    cases timing c with
    | some t => exact ⟨_, rfl⟩
    | none => exact ⟨_, rfl⟩

/-- Settles O13: with nothing pending it is the sequencer's turn. -/
theorem sequencerAlwaysGoesOn : Obligations.SequencerAlwaysGoesOn := by
  unfold Obligations.SequencerAlwaysGoesOn
  intro s hs hq
  rw [step_of_empty_queue s hq]
  exact sequencerTurn_next s ((inv_iff s).mp hs).1

/-- An outcome in which no fetch went wrong: no fault, and no refusal for an entry without value (20_memory R88). -/
def FetchFine (o : Host.Outcome State Fault Refusal) : Prop :=
  (∀ f, o ≠ .fault f) ∧ o ≠ .refused .seqEntryNoValue

/-- Nothing went wrong where a next state is answered. -/
theorem fetchFine_next (s : State) : FetchFine (.next s) := ⟨fun _ h => (nomatch h), fun h => nomatch h⟩

/-- Nothing went wrong in the fetch where the refusal is another one. -/
theorem fetchFine_refused (r : Refusal) (h : r ≠ .seqEntryNoValue) : FetchFine (.refused r) :=
  ⟨fun _ h => (nomatch h), fun e => h (Host.Outcome.refused.inj e)⟩

/-- A transmit launch fetches nothing. -/
theorem fetchFine_launchTx (written : Bool) (run : State → State) (s : State) : FetchFine (launchTx written run s) := by
  unfold launchTx
  split_ifs
  · exact fetchFine_refused _ (by decide)
  · exact fetchFine_next _

/-- A host write fetches nothing. -/
theorem fetchFine_txWrite (s : State) (tx : TxHalf) : FetchFine (txWrite s tx) := by
  unfold txWrite
  split_ifs
  · exact fetchFine_refused _ (by decide)
  · exact fetchFine_next _

/-- No instruction's own meaning fetches an entry: the step that runs a symbol has fetched it (43_sequencer R186). -/
theorem fetchFine_exec (i : Instr) (s : State) : FetchFine (exec i s) := by
  cases i
  case encode => exact fetchFine_launchTx _ _ s
  case compile => exact fetchFine_launchTx _ _ s
  case opReserved => exact fetchFine_refused _ (by decide)
  case play =>
    change FetchFine (execPlay s)
    unfold execPlay
    split_ifs
    · exact fetchFine_refused _ (by decide)
    · exact fetchFine_refused _ (by decide)
    · exact fetchFine_refused _ (by decide)
    · exact fetchFine_next _
  all_goals exact fetchFine_next _

/-- No host action goes wrong in the fetch, from a state that meets the transmit clauses. -/
theorem fetchFine_hostTurn (a : HostAction) (s : State) (h : TxInv s) : FetchFine (hostTurn a s).outcome := by
  cases a
  case pass =>
    obtain ⟨t, ht⟩ := sequencerTurn_next s h
    rw [hostTurn, ht]
    exact fetchFine_next t
  case tick =>
    obtain ⟨t, ht⟩ := sequencerTick_next s h
    rw [hostTurn, ht]
    exact fetchFine_next t
  case operation c => exact fetchFine_exec _ s
  case packet p => exact fetchFine_exec _ s
  case presentCapture rows =>
    change FetchFine (hostPresentCapture rows s)
    unfold hostPresentCapture
    split_ifs
    · exact fetchFine_next _
    · exact fetchFine_refused _ (by decide)
  case writeQ => exact fetchFine_next _
  case presentRun => exact fetchFine_next _
  case reset => exact fetchFine_next _
  all_goals exact fetchFine_txWrite s _

/-- Settles O12: the sequencer always goes on, and nothing else fetches. -/
theorem noFetchGoesWrong : Obligations.NoFetchGoesWrong := by
  unfold Obligations.NoFetchGoesWrong
  intro s hs
  obtain ⟨htx, -, -⟩ := (inv_iff s).mp hs
  cases hq : s.host.queue with
  | nil =>
    obtain ⟨t, ht⟩ := sequencerAlwaysGoesOn s hs hq
    rw [ht]
    exact fetchFine_next t
  | cons a rest =>
    rw [step_of_action s a rest hq]
    exact fetchFine_hostTurn a _ (htx.of_tx_eq rfl)

/-! ### The sentinel -/

/-- Settles O40: the sentinel's code has no timing and aborts; the last symbol's step makes the end test; at `SEQ_LEN` the
sequencer makes the end test and fetches nothing. -/
theorem prematureSentinelEndsPlay : Obligations.PrematureSentinelEndsPlay := by
  unfold Obligations.PrematureSentinelEndsPlay
  refine ⟨rfl, ?aborts, ?last, ?ended⟩
  case aborts => exact fun s => ⟨abortPlay s, rfl, rfl, rfl, rfl, rfl, rfl⟩
  case last =>
    intro s timed hs hq hb hp hlast htimed
    obtain ⟨htx, -, -⟩ := (inv_iff s).mp hs
    obtain ⟨c, hc, hlt, -⟩ := (htx.running hb).fetch
    rw [hc, Option.bind_some] at htimed
    have hpc : s.tx.seqPc + 1#9 = s.tx.seqLen := by
      apply BitVec.eq_of_toNat_eq
      rw [BitVec.toNat_add, ← hlast]
      simp
      omega
    refine ⟨Ref.afterSymbol timed s, ?_, ?_, hpc, rfl, rfl, rfl⟩
    · rw [step_of_empty_queue s hq, sequencerTurn_of_symbol s c hb hp (by omega) hlt hc, Turn.outcome,
        exec_symbol_of_timing c timed htimed, playSymbol_eq_afterSymbol]
    · simp [Ref.afterSymbol, hpc]
  case ended =>
    intro s hq hb hp hpc
    have hle : s.tx.seqLen.toNat ≤ s.tx.seqPc.toNat := by rw [hpc]
    have hturn : sequencerTurn s = .settled (.next (endIfDone s)) := by simp [sequencerTurn, hb, hp, hle]
    rw [step_of_empty_queue s hq, hturn, Turn.outcome, endIfDone_eq, decide_eq_false (by omega), Bool.false_and]

end Sys2Proof.Machine

/-!
PROOFS. Runs of PLAY (43_sequencer R184, R193, R197, R198, R201): one step per entry from the launch on, the abort at the
first entry without a timing, the length of a compiled burst, and the length of a waveform (R183).
-/

namespace Sys2Proof.Machine

open Sys2Proof.Safety

/-! ### Runs -/

/-- A run that begins with a step that answers a next state. -/
theorem run_succ_of_step (k : Nat) (s t : State) (h : step s = .next t) : core.run (k + 1) s = core.run k t := by
  have h' : core.step s = .next t := h
  simp only [Host.Core.run, h']

/-- A run of `m + n` steps is the run of `n` steps from where `m` steps end. -/
theorem run_add (m n : Nat) (s t : State) (h : core.run m s = .next t) : core.run (m + n) s = core.run n t := by
  induction m generalizing s with
  | zero =>
    cases h
    rw [Nat.zero_add]
  | succ m ih =>
    cases hs : step s with
    | next u =>
      rw [run_succ_of_step m s u hs] at h
      rw [Nat.add_right_comm, run_succ_of_step (m + n) s u hs, ih u h]
    | fault f =>
      have hs' : core.step s = .fault f := hs
      simp only [Host.Core.run, hs', reduceCtorEq] at h
    | refused r =>
      have hs' : core.step s = .refused r := hs
      simp only [Host.Core.run, hs', reduceCtorEq] at h

/-! ### One step per entry -/

/-- A PLAY just launched on a sequence that leaves room for its sentinel, with nothing pending (43_sequencer R184). -/
structure Launched (s : State) : Prop where
  queue : s.host.queue = []
  seqPc : s.tx.seqPc = 0#9
  busy : s.tx.txBusy = decide (0 < s.tx.seqLen.toNat)
  phase : s.tx.phase = .between
  len_le : s.tx.seqLen.toNat ≤ 337

/-- `t` is the state after the first `i` entries of the PLAY launched in `s`: their events in the trace, `SEQ_PC` at `i`,
busy below `SEQ_LEN`, the line low after an entry with a low phase, and all else as at the launch (43_sequencer R184,
R197, R198). -/
structure PlayedTo (s : State) (i : Nat) (t : State) : Prop where
  trace : t.out.trace = s.out.trace ++ Ref.sequenceEvents s.tx.seq i
  seqPc : t.tx.seqPc.toNat = i
  busy : t.tx.txBusy = decide (i < s.tx.seqLen.toNat)
  line : ∀ j tm, j + 1 = i → (readSeq s.tx.seq j).bind timing = some tm → tm.low ≠ 0#16 → t.tx.line = false
  phase : t.tx.phase = .between
  txErr : t.tx.txErr = s.tx.txErr
  seq : t.tx.seq = s.tx.seq
  seqLen : t.tx.seqLen = s.tx.seqLen
  seqValid : t.tx.seqValid = s.tx.seqValid
  p : t.tx.p = s.tx.p
  rx : t.rx = s.rx
  crc : t.crc = s.crc
  host : t.host = s.host
  reports : t.out.reports = s.out.reports

/-- At the launch no entry is played yet. -/
theorem playedTo_zero (s : State) (h : Launched s) : PlayedTo s 0 s where
  trace := (List.append_nil _).symm
  seqPc := by rw [h.seqPc]; rfl
  busy := h.busy
  line := fun j _ hj => absurd hj (Nat.succ_ne_zero j)
  phase := h.phase
  txErr := rfl
  seq := rfl
  seqLen := rfl
  seqValid := rfl
  p := rfl
  rx := rfl
  crc := rfl
  host := rfl
  reports := rfl

/-- Below `SEQ_LEN` the step after the first `i` entries runs entry `i` (43_sequencer R186). -/
theorem PlayedTo.step_eq {s t : State} {i : Nat} (h : PlayedTo s i t) (hs : Launched s) (hi : i < s.tx.seqLen.toNat)
    (c : SymCode) (hc : readSeq s.tx.seq i = some c) : step t = exec (decodeWord (.symbol c)) t := by
  have hlen := hs.len_le
  have hb : t.tx.txBusy = true := h.busy.trans (decide_eq_true hi)
  have hr : readSeq t.tx.seq t.tx.seqPc.toNat = some c := by rw [h.seq, h.seqPc, hc]
  rw [step_of_empty_queue t (by rw [h.host, hs.queue]), sequencerTurn_of_symbol t c hb h.phase
    (by rw [h.seqPc, h.seqLen]; exact hi) (by rw [h.seqPc]; omega) hr]
  rfl

/-- The step on an entry with a timing goes on to the next one, with that entry's events (43_sequencer R184). -/
theorem PlayedTo.succ {s t : State} {i : Nat} (h : PlayedTo s i t) (hs : Launched s) (hi : i < s.tx.seqLen.toNat)
    (hplay : Ref.playable s.tx.seq i) : ∃ u, step t = .next u ∧ PlayedTo s (i + 1) u := by
  obtain ⟨tm, htm⟩ := hplay
  obtain ⟨c, hc, ht⟩ := Option.bind_eq_some_iff.mp htm
  have hpc : (t.tx.seqPc + 1#9).toNat = i + 1 := by
    have hlen := hs.len_le
    rw [BitVec.toNat_add, h.seqPc]
    simp
    omega
  refine ⟨Ref.afterSymbol tm t, ?_, ?_⟩
  · rw [h.step_eq hs hi c hc, exec_symbol_of_timing c tm ht, playSymbol_eq_afterSymbol]
  · exact
    { trace := by simp [Ref.afterSymbol, h.trace, Ref.sequenceEvents, htm]
      seqPc := hpc
      busy := by simp only [Ref.afterSymbol, hpc, h.busy, h.seqLen, decide_eq_true hi, Bool.true_and]
      line := by
        intro j tm' hj htm' hlow
        obtain rfl : j = i := Nat.succ.inj hj
        obtain rfl : tm = tm' := Option.some.inj (htm.symm.trans htm')
        exact if_neg hlow
      phase := rfl
      txErr := h.txErr
      seq := h.seq
      seqLen := h.seqLen
      seqValid := h.seqValid
      p := h.p
      rx := h.rx
      crc := h.crc
      host := h.host
      reports := h.reports }

/-- The first `i` steps after the launch play the first `i` entries, where all of these have a timing (43_sequencer
R197). -/
theorem run_playedTo (s : State) (hs : Launched s) (i : Nat) (hi : i ≤ s.tx.seqLen.toNat)
    (hplay : ∀ j < i, Ref.playable s.tx.seq j) : ∃ t : State, core.run i s = .next t ∧ PlayedTo s i t := by
  induction i with
  | zero => exact ⟨s, rfl, playedTo_zero s hs⟩
  | succ i ih =>
    obtain ⟨t, hrun, ht⟩ := ih (by omega) fun j hj => hplay j (by omega)
    obtain ⟨u, hstep, hu⟩ := ht.succ hs hi (hplay i (Nat.lt_succ_self i))
    exact ⟨u, by rw [run_add i 1 s t hrun, run_succ_of_step 0 t u hstep]; rfl, hu⟩

/-! ### A PLAY from its presentation on -/

/-- PLAY presented to an idle block with a sound sequence is launched (43_sequencer R184). -/
theorem step_play (s : State) (rest : List HostAction) (hq : s.host.queue = .operation 5#3 :: rest)
    (hb : s.tx.txBusy = false) (hv : s.tx.seqValid = true) (hrule : Ref.sentinelRule s) :
    step s = .next (playLaunch (dropAction rest s)) :=
  (step_of_action s _ rest hq).trans
    (exec_play_of_sound (dropAction rest s) hb hv ((sequenceSound_iff_sentinelRule s).mpr hrule))

/-- The launch with nothing pending after it starts the entries (43_sequencer R184). -/
theorem launched_playLaunch (s : State) (hrule : Ref.sentinelRule s) : Launched (playLaunch (dropAction [] s)) := by
  rw [playLaunch_eq]
  exact ⟨rfl, rfl, rfl, rfl, hrule.1⟩

/-- What the launch leaves: everything the played entries and their host look at (43_sequencer R184). -/
theorem playLaunch_frame (s : State) :
    (playLaunch s).out = s.out ∧ (playLaunch s).rx = s.rx ∧ (playLaunch s).crc = s.crc ∧
      (playLaunch s).tx.seq = s.tx.seq ∧ (playLaunch s).tx.seqLen = s.tx.seqLen ∧
      (playLaunch s).tx.seqValid = s.tx.seqValid ∧ (playLaunch s).tx.p = s.tx.p ∧ (playLaunch s).tx.txErr = 0#3 := by
  rw [playLaunch_eq]
  exact ⟨rfl, rfl, rfl, rfl, rfl, rfl, rfl, rfl⟩

/-- Settles O42: the launch, then one step per entry. -/
theorem playExecutesEverySymbolInOrder : Obligations.PlayExecutesEverySymbolInOrder := by
  unfold Obligations.PlayExecutesEverySymbolInOrder
  intro s hq hb hv hrule hplay
  obtain ⟨hout, hrx, hcrc, hseq, hlen, hvalid, hp, herr⟩ := playLaunch_frame (dropAction [] s)
  obtain ⟨t, hrun, ht⟩ := run_playedTo _ (launched_playLaunch s hrule) s.tx.seqLen.toNat (by rw [hlen]; rfl)
    (by rw [hseq]; exact hplay)
  refine ⟨t, ?_, ?_, ?_, ht.txErr.trans herr, ?_, ht.seq.trans hseq, ht.seqLen.trans hlen,
    (ht.seqValid.trans hvalid).trans hv, ht.p.trans hp, ht.rx.trans hrx, ht.crc.trans hcrc, ?_⟩
  · rw [Nat.add_comm, run_succ_of_step _ s _ (step_play s [] hq hb hv hrule), hrun]
  · rw [ht.trace, hout, hseq]
    rfl
  · rw [ht.busy, hlen]
    exact decide_eq_false (Nat.lt_irrefl _)
  · exact BitVec.eq_of_toNat_eq ht.seqPc
  · rw [ht.reports, hout]
    rfl

/-- Settles O43: the entries before the bad one are played, and the step on it aborts. -/
theorem playAbortsAtTheFirstBadEntry : Obligations.PlayAbortsAtTheFirstBadEntry := by
  unfold Obligations.PlayAbortsAtTheFirstBadEntry
  intro s i hq hb hv hrule hi hplay hbad
  obtain ⟨hout, -, -, hseq, hlen, -, -, -⟩ := playLaunch_frame (dropAction [] s)
  have hs := launched_playLaunch s hrule
  obtain ⟨t, hrun, ht⟩ := run_playedTo _ hs i (by rw [hlen]; exact Nat.le_of_lt hi) (by rw [hseq]; exact hplay)
  have ⟨_, _, hwritten⟩ := hrule
  obtain ⟨c, hc⟩ := Option.ne_none_iff_exists'.mp (hwritten i hi)
  have hno : timing c = none := by
    by_contra h
    obtain ⟨tm, htm⟩ := Option.ne_none_iff_exists'.mp h
    exact hbad ⟨tm, by rw [hc, Option.bind_some, htm]⟩
  have hstep : step t = .next (abortPlay t) := by
    rw [ht.step_eq hs (by rw [hlen]; exact hi) c (by rw [hseq]; exact hc), exec_symbol_of_no_timing c hno]
  refine ⟨abortPlay t, ?_, ?_, rfl, rfl, ht.seqPc, ht.seq.trans hseq, ?_⟩
  · rw [Nat.add_assoc, Nat.add_comm, run_succ_of_step _ s _ (step_play s [] hq hb hv hrule), run_add i 1 _ t hrun,
      run_succ_of_step 0 t _ hstep]
    rfl
  · have htrace : (abortPlay t).out.trace = t.out.trace ++ [.abort t.tx.seqPc.toNat] := rfl
    rw [htrace, ht.seqPc, ht.trace, hout, hseq]
    rfl
  · have hreports : (abortPlay t).out.reports = t.out.reports ++ [.playbackSequencing t.tx.seqPc.toNat] := rfl
    rw [hreports, ht.seqPc, ht.reports, hout]
    rfl

/-! ### How long a trace lasts -/

/-- The events of a code, none for a code without a timing (43_sequencer R194). -/
def codeEvents (c : SymCode) : List Event := ((timing c).map Ref.symbolEvents).getD []

/-- The events of the first entries of a memory that holds a list of codes are those of the codes (43_sequencer R197). -/
theorem sequenceEvents_eq_flatMap (m : SeqMem) (l : List SymCode) (h : ∀ i < l.length, readSeq m i = l[i]?) :
    Ref.sequenceEvents m l.length = l.flatMap codeEvents := by
  induction l using List.reverseRecOn with
  | nil => rfl
  | append_singleton l c ih =>
    have hlast : readSeq m l.length = some c := by rw [h l.length (by simp)]; simp
    have hinit : ∀ i < l.length, readSeq m i = l[i]? := fun i hi => by
      rw [h i (by simp; omega), List.getElem?_append_left hi]
    rw [List.length_append, List.length_singleton, Ref.sequenceEvents, ih hinit, hlast, List.flatMap_append]
    simp [codeEvents]

/-- Traces in a row last as long as both (70_reset_and_hazards R280). -/
theorem duration_append (a b : List Event) : duration (a ++ b) = duration a + duration b := by
  induction a with
  | nil => simp [duration]
  | cons e es ih => cases e <;> simp [duration, ih, Nat.add_assoc]

/-- The events of codes last as long as the codes together (70_reset_and_hazards R280). -/
theorem duration_flatMap_codeEvents (l : List SymCode) :
    duration (l.flatMap codeEvents) = (l.map fun c => duration (codeEvents c)).sum := by
  induction l with
  | nil => rfl
  | cons c l ih => rw [List.flatMap_cons, duration_append, ih, List.map_cons, List.sum_cons]

/-- A packet bit lasts 600 microseconds, whatever it is (43_sequencer R189, R190). -/
theorem duration_bitSymbol (b : Bool) : duration (codeEvents (bitSymbol b)) = 600 := by
  cases b <;> decide

/-- A copy lasts 52800 microseconds: four SYNC of 1200 and 80 bits of 600 (43_sequencer R201). -/
theorem duration_copySymbols (p : Packet) : duration ((copySymbols p).flatMap codeEvents) = 52800 := by
  have hsync : duration (codeEvents codeSync) = 1200 := by decide
  rw [duration_flatMap_codeEvents, copySymbols, List.map_append, List.map_map, List.map_replicate, hsync]
  simp [Function.comp_def, duration_bitSymbol, Config.preambleCount, Config.packetBits]

/-- `n` copies last 52800n microseconds (43_sequencer R201). -/
theorem duration_copies (p : Packet) (n : Nat) :
    duration ((List.replicate n (copySymbols p)).flatten.flatMap codeEvents) = 52800 * n := by
  induction n with
  | zero => rfl
  | succ n ih =>
    rw [List.replicate_succ, List.flatten_cons, List.flatMap_append, duration_append, duration_copySymbols, ih]
    omega

/-! ### A compiled burst -/

/-- The played symbols of a burst: all but its sentinel (42_compiler R169). -/
def playedBurst (p : Packet) (n : Nat) : List SymCode := (List.replicate n (copySymbols p)).flatten ++ [codeImGap]

/-- A burst is its played symbols and the sentinel (30_encoding R106). -/
theorem burst_eq_playedBurst (p : Packet) (n : Nat) : burst p n = playedBurst p n ++ [codeNone] := by
  simp [burst, playedBurst]

/-- `84n + 1` symbols are played (42_compiler R169). -/
theorem playedBurst_length (p : Packet) (n : Nat) : (playedBurst p n).length = 84 * n + 1 := by
  simp [playedBurst, copySymbols_length, Nat.mul_comm]

/-- Every symbol before the sentinel has a timing (43_sequencer R201). -/
theorem timing_of_mem_playedBurst (p : Packet) (n : Nat) (c : SymCode) (h : c ∈ playedBurst p n) :
    ∃ tm, timing c = some tm := by
  have hcode : c = codeSync ∨ (∃ b, c = bitSymbol b) ∨ c = codeImGap := by
    simp only [playedBurst, copySymbols, List.mem_append, List.mem_flatten, List.mem_replicate,
      List.mem_singleton] at h
    rcases h with ⟨l, ⟨-, rfl⟩, hl⟩ | rfl
    · rcases List.mem_append.mp hl with hpre | hbit
      · exact .inl (List.eq_of_mem_replicate hpre)
      · obtain ⟨k, -, rfl⟩ := List.mem_map.mp hbit
        exact .inr (.inl ⟨_, rfl⟩)
    · exact .inr (.inr rfl)
  rcases hcode with rfl | ⟨b, rfl⟩ | rfl
  · exact ⟨timingSync, rfl⟩
  · cases b
    · exact ⟨timingZero, rfl⟩
    · exact ⟨timingOne, rfl⟩
  · exact ⟨timingImGap, rfl⟩

/-- The played symbols of a written burst, entry by entry (42_compiler R166). -/
theorem readSeq_playedBurst (p : Packet) (n i : Nat) (m : SeqMem) (hi : i < 84 * n + 1) :
    readSeq (writeSeqRun (burst p n) 0 m) i = (playedBurst p n)[i]? := by
  rw [readSeq_writeBurst p n i m (by omega), burst_eq_playedBurst,
    List.getElem?_append_left (by rw [playedBurst_length]; exact hi)]

/-- Each entry of a written burst before the sentinel is played (43_sequencer R201). -/
theorem playable_playedBurst (p : Packet) (n i : Nat) (m : SeqMem) (hi : i < 84 * n + 1) :
    Ref.playable (writeSeqRun (burst p n) 0 m) i := by
  have hlt : i < (playedBurst p n).length := by rw [playedBurst_length]; exact hi
  obtain ⟨tm, htm⟩ := timing_of_mem_playedBurst p n _ (List.getElem_mem hlt)
  exact ⟨tm, by rw [readSeq_playedBurst p n i m hi, List.getElem?_eq_getElem hlt, Option.bind_some, htm]⟩

/-- The last played entry of a written burst is IM_GAP (30_encoding R106). -/
theorem readSeq_burst_last (p : Packet) (n : Nat) (m : SeqMem) :
    readSeq (writeSeqRun (burst p n) 0 m) (84 * n) = some codeImGap :=
  (readSeq_writeBurst p n _ m (by omega)).trans (burst_after_copies p n 0)

/-- A written burst lasts `52800n + 1250` microseconds (43_sequencer R201). -/
theorem duration_writtenBurst (p : Packet) (n : Nat) (m : SeqMem) :
    duration (Ref.sequenceEvents (writeSeqRun (burst p n) 0 m) (84 * n + 1)) = 52800 * n + 1250 := by
  have hgap : duration ([codeImGap].flatMap codeEvents) = 1250 := by decide
  have hread : ∀ i < (playedBurst p n).length, readSeq (writeSeqRun (burst p n) 0 m) i = (playedBurst p n)[i]? :=
    fun i hi => readSeq_playedBurst p n i m (by rwa [playedBurst_length] at hi)
  rw [← playedBurst_length p n, sequenceEvents_eq_flatMap _ _ hread, playedBurst, List.flatMap_append, duration_append,
    duration_copies, hgap]

/-- The length COMPILE writes, as a number (42_compiler R169). -/
theorem writeBurst_seqLen_toNat (n : Nat) (s : State) (hn : n ≤ 4) : (writeBurst n s).tx.seqLen.toNat = 84 * n + 1 := by
  have hlen : burstLen n = 84 * n + 1 := rfl
  rw [writeBurst_tx_seqLen, hlen, BitVec.toNat_ofNat]
  omega

/-- A written burst keeps the sentinel rule (43_sequencer R202). -/
theorem sentinelRule_writeBurst (n : Nat) (s : State) (hn : n ≤ 4) : Ref.sentinelRule (writeBurst n s) := by
  rw [Ref.sentinelRule, writeBurst_seqLen_toNat n s hn, writeBurst_tx_seq]
  refine ⟨by omega, (readSeq_writeBurst s.tx.p n _ s.tx.seq (by omega)).trans (burst_after_copies s.tx.p n 1), ?_⟩
  intro i hi hnone
  obtain ⟨tm, htm⟩ := playable_playedBurst s.tx.p n i s.tx.seq hi
  rw [hnone] at htm
  cases htm

/-- Settles O44: COMPILE writes a sound sequence all of whose entries are played, the last an IM_GAP. -/
theorem compiledBurstPlaysFullLength : Obligations.CompiledBurstPlaysFullLength := by
  unfold Obligations.CompiledBurstPlaysFullLength
  rintro s n hq hb hw rfl hn
  generalize hcount : s.tx.repeatsIn.toNat = n at hn ⊢
  let s1 := writeBurst n (beginTx (dropAction [.operation 5#3] s))
  have hcompile : step s = .next s1 := by
    have hexec := exec_compile_of_written (dropAction [.operation 5#3] s) hb hw
    rw [dropAction_tx, hcount, compileBurst_of_fits n _ (by omega)] at hexec
    exact (step_of_action s _ _ hq).trans hexec
  have hrule : Ref.sentinelRule s1 := sentinelRule_writeBurst n _ hn
  have hplay : step s1 = .next (playLaunch (dropAction [] s1)) := step_play s1 [] rfl hb rfl hrule
  obtain ⟨hout, -, -, hseq, hlen, -, -, herr⟩ := playLaunch_frame (dropAction [] s1)
  have hlen' : s1.tx.seqLen.toNat = 84 * n + 1 := writeBurst_seqLen_toNat n _ hn
  have hseq' : (playLaunch (dropAction [] s1)).tx.seq = writeSeqRun (burst s.tx.p n) 0 s.tx.seq := hseq
  obtain ⟨t, hrun, ht⟩ := run_playedTo _ (launched_playLaunch s1 hrule) (84 * n + 1)
    (by rw [hlen, dropAction_tx, hlen']) (by rw [hseq']; exact fun j hj => playable_playedBurst s.tx.p n j s.tx.seq hj)
  refine ⟨t, Ref.sequenceEvents (writeSeqRun (burst s.tx.p n) 0 s.tx.seq) (84 * n + 1), ?_, ?_,
    duration_writtenBurst s.tx.p n s.tx.seq, ?_, ht.txErr.trans herr, ?_, ?_⟩
  · rw [Nat.add_comm, run_succ_of_step _ s s1 hcompile, run_succ_of_step _ s1 _ hplay, hrun]
  · rw [ht.trace, hout, hseq']
    rfl
  · rw [ht.busy, hlen, dropAction_tx, hlen']
    exact decide_eq_false (Nat.lt_irrefl _)
  · refine ht.line (84 * n) timingImGap rfl ?_ (by decide)
    rw [hseq', readSeq_burst_last]
    rfl
  · rw [ht.reports, hout]
    rfl

/-! ### The waveform -/

/-- A pair put before a waveform adds its microseconds, merged or not (43_sequencer R183). -/
theorem sum_mergePair (level : Bool) (us : Nat) (w : List (Bool × Nat)) :
    ((mergePair level us w).map Prod.snd).sum = us + (w.map Prod.snd).sum := by
  cases w with
  | nil => rfl
  | cons e w =>
    obtain ⟨l, d⟩ := e
    simp only [mergePair]
    split_ifs <;> simp [Nat.add_assoc]

/-- Settles O60, by induction on the trace: only a delay adds a pair. -/
theorem waveformKeepsTheDuration : Obligations.WaveformKeepsTheDuration := by
  unfold Obligations.WaveformKeepsTheDuration
  intro b es
  induction es generalizing b with
  | nil => rfl
  | cons e es ih =>
    cases e with
    | line level => exact ih level
    | delay us => rw [waveform, sum_mergePair, ih, duration]
    | abort i => exact ih b

end Sys2Proof.Machine

/-!
PROOFS. The sequencer's microseconds (43_sequencer R182, R194; 10_state R50; log 9): a phase counted down, a symbol counted
down to the symbol played whole, and runs of pending ticks.
-/

namespace Sys2Proof.Machine

open Sys2Proof.Safety

/-! ### A phase counted down -/

/-- Microseconds counted down one by one (10_state R50). -/
theorem countDown_iterate (k : Nat) (s : State) :
    countDown^[k] s =
      { s with tx.timer := s.tx.timer - BitVec.ofNat 16 k, out.trace := elapseTrace^[k] s.out.trace } := by
  induction k with
  | zero => simp
  | succ k ih =>
    have htimer : s.tx.timer - BitVec.ofNat 16 k - 1#16 = s.tx.timer - BitVec.ofNat 16 (k + 1) := by
      rw [sub_sub, BitVec.ofNat_add]
    rw [Function.iterate_succ_apply', Function.iterate_succ_apply' elapseTrace, ih, ← htimer]
    rfl

/-- The microseconds after a level was set make one delay (43_sequencer R182). -/
theorem elapseTrace_iterate_line (w : List Event) (b : Bool) (k : Nat) (hk : 0 < k) :
    elapseTrace^[k] (w ++ [.line b]) = w ++ [.line b] ++ [.delay k] := by
  induction k, hk using Nat.le_induction with
  | base => simp [elapseTrace_line]
  | succ k _ ih => rw [Function.iterate_succ_apply', ih, elapseTrace_delay]

/-- A microsecond that is not the last of its phase (10_state R50). -/
theorem elapse_of_timer_ne_one (s : State) (hp : s.tx.phase ≠ .between) (ht : s.tx.timer ≠ 1#16) :
    elapse s = countDown s := by
  unfold elapse
  split
  · contradiction
  · exact if_neg ht
  · exact if_neg ht

/-- As long as its phase lasts a delay is counted down (10_state R50). -/
theorem elapseN_of_lt_timer (k : Nat) (s : State) (hp : s.tx.phase ≠ .between) (hk : k < s.tx.timer.toNat) :
    elapseN k s = countDown^[k] s := by
  induction k generalizing s with
  | zero => rfl
  | succ k ih =>
    have hne : s.tx.timer ≠ 1#16 := by
      intro h
      rw [h] at hk
      simp at hk
    have hk' : k < (countDown s).tx.timer.toNat := by
      rw [countDown_tx_timer]
      bv_omega
    rw [elapseN, elapse_of_timer_ne_one s hp hne, ih (countDown s) hp hk', Function.iterate_succ_apply]

/-- The last microsecond of a phase finds `TIMER` at 1 (10_state R50). -/
theorem elapseN_timer (s : State) (hp : s.tx.phase ≠ .between) (ht : s.tx.timer ≠ 0#16) :
    ∃ u, elapseN s.tx.timer.toNat s = elapse u ∧ countDown u = countDown^[s.tx.timer.toNat] s ∧ u.tx.timer = 1#16 ∧
      u.tx.phase = s.tx.phase ∧ currentTiming u = currentTiming s := by
  obtain ⟨m, hm⟩ : ∃ m, s.tx.timer.toNat = m + 1 :=
    Nat.exists_eq_succ_of_ne_zero fun h => ht (BitVec.eq_of_toNat_eq h)
  refine ⟨countDown^[m] s, ?_, ?_, ?_, ?_, ?_⟩
  · rw [hm, elapseN_add m 1, elapseN_of_lt_timer m s hp (by omega)]
    rfl
  · rw [hm, Function.iterate_succ_apply']
  · have hlt := s.tx.timer.isLt
    rw [countDown_iterate]
    apply BitVec.eq_of_toNat_eq
    simp only [BitVec.toNat_sub, BitVec.toNat_ofNat]
    omega
  · rw [countDown_iterate]
  · rw [countDown_iterate]
    rfl

/-- A high phase counted down goes on to the low phase (43_sequencer R194). -/
theorem elapseN_high (s : State) (hp : s.tx.phase = .high) (ht : s.tx.timer ≠ 0#16) :
    elapseN s.tx.timer.toNat s = enterLow (currentTiming s) (countDown^[s.tx.timer.toNat] s) := by
  obtain ⟨u, hu, hcount, htimer, hphase, hcur⟩ := elapseN_timer s (by rw [hp]; decide) ht
  rw [hu, elapse, hphase, hp, ← hcount, ← hcur]
  exact if_pos htimer

/-- A low phase counted down completes the symbol (43_sequencer R194). -/
theorem elapseN_low (s : State) (hp : s.tx.phase = .low) (ht : s.tx.timer ≠ 0#16) :
    elapseN s.tx.timer.toNat s = completeSymbol (countDown^[s.tx.timer.toNat] s) := by
  obtain ⟨u, hu, hcount, htimer, hphase, -⟩ := elapseN_timer s (by rw [hp]; decide) ht
  rw [hu, elapse, hphase, hp, ← hcount]
  exact if_pos htimer

/-! ### A symbol counted down -/

/-- A completed symbol does not look at the phase and the timer it ends (43_sequencer R184). -/
theorem completeSymbol_forgets (s : State) (p : Phase) (x : Dur) :
    completeSymbol { s with tx.phase := p, tx.timer := x } = completeSymbol s := rfl

/-- The begin of a low phase does not look at the phase and the timer it ends (43_sequencer R194). -/
theorem enterLow_forgets (t : SymbolTiming) (s : State) (p : Phase) (x : Dur) :
    enterLow t { s with tx.phase := p, tx.timer := x } = enterLow t s := by
  unfold enterLow
  split_ifs
  · exact completeSymbol_forgets s p x
  · rfl

/-- A phase of `d` microseconds at a level, begun and counted down, is the level set and the whole delay, but for the phase
and the timer (43_sequencer R181, R182). -/
theorem countDown_iterate_phase (b : Bool) (p : Phase) (d : Dur) (s : State) (hd : d ≠ 0#16) :
    countDown^[d.toNat] { setLine b s with tx.phase := p, tx.timer := d } =
      { delayUs d (setLine b s) with tx.phase := p, tx.timer := d - BitVec.ofNat 16 d.toNat } := by
  have hpos : 0 < d.toNat := Nat.pos_of_ne_zero fun h => hd (BitVec.eq_of_toNat_eq h)
  rw [countDown_iterate]
  simp only [setLine_out_trace, elapseTrace_iterate_line _ b _ hpos]
  rfl

/-- A low phase begun and counted down is the low phase as one effect, and the symbol is complete (43_sequencer R194). -/
theorem elapseN_enterLow (t : SymbolTiming) (s : State) :
    elapseN t.low.toNat (enterLow t s) = completeSymbol (lowPhase t s) := by
  unfold enterLow lowPhase
  split_ifs with hlow
  · rw [hlow]
    rfl
  · refine (elapseN_low { setLine false s with tx.phase := .low, tx.timer := t.low } rfl hlow).trans ?_
    rw [countDown_iterate_phase false .low t.low s hlow, completeSymbol_forgets]

/-- A high phase begun and counted down is the high phase as one effect, and the low phase begins (43_sequencer R194). -/
theorem elapseN_enterSymbol (t : SymbolTiming) (s : State) (hcur : currentTiming s = t) :
    elapseN t.high.toNat (enterSymbol t s) = enterLow t (highPhase t s) := by
  unfold enterSymbol highPhase
  split_ifs with hhigh
  · rw [hhigh]
    rfl
  · refine (elapseN_high { setLine true s with tx.phase := .high, tx.timer := t.high } rfl hhigh).trans ?_
    have hcur' : currentTiming { setLine true s with tx.phase := .high, tx.timer := t.high } = t := hcur
    rw [hcur', countDown_iterate_phase true .high t.high s hhigh, enterLow_forgets]

/-- A symbol begun and counted down is the symbol played as one effect (43_sequencer R182, R194). -/
theorem elapseN_symbol (t : SymbolTiming) (s : State) (hcur : currentTiming s = t) :
    elapseN (t.high.toNat + t.low.toNat) (enterSymbol t s) = playSymbol t s := by
  rw [elapseN_add, elapseN_enterSymbol t s hcur, elapseN_enterLow]
  rfl

/-- Microseconds beyond the end of a symbol change nothing (log 9). -/
theorem elapseN_symbol_of_le (n : Nat) (t : SymbolTiming) (s : State) (hcur : currentTiming s = t)
    (hn : t.high.toNat + t.low.toNat ≤ n) : elapseN n (enterSymbol t s) = playSymbol t s := by
  have hphase : (playSymbol t s).tx.phase = .between := completeSymbol_tx_phase _
  rw [← Nat.add_sub_cancel' hn, elapseN_add, elapseN_symbol t s hcur, elapseN_between _ _ hphase]

/-! ### The microseconds left -/

/-- A low phase just begun has its duration left (10_state R50). -/
theorem remaining_enterLow (t : SymbolTiming) (s : State) : remaining (enterLow t s) = t.low.toNat := by
  unfold enterLow
  split_ifs with hlow
  · rw [remaining, completeSymbol_tx_phase, hlow]
    rfl
  · rfl

/-- A symbol just begun has its two durations left (10_state R50). -/
theorem remaining_enterSymbol (t : SymbolTiming) (s : State) (hcur : currentTiming s = t) :
    remaining (enterSymbol t s) = t.high.toNat + t.low.toNat := by
  unfold enterSymbol
  split_ifs with hhigh
  · rw [remaining_enterLow, hhigh]
    exact (Nat.zero_add _).symm
  · conv_rhs => rw [← hcur]
    rw [← hcur]
    rfl

/-- Each microsecond leaves one less (10_state R50). -/
theorem remaining_elapse (s : State) (h : TxInv s) : remaining (elapse s) = remaining s - 1 := by
  obtain ⟨htimer, -, -, -⟩ := h.phase
  cases hp : s.tx.phase with
  | between =>
    simp [elapse, remaining, hp]
  | high =>
    have hne : s.tx.timer ≠ 0#16 := fun e => by simp [htimer.mpr e] at hp
    have hrem : remaining s = s.tx.timer.toNat + (currentTiming s).low.toNat := by rw [remaining, hp]
    by_cases ht : s.tx.timer = 1#16
    · have he : elapse s = enterLow (currentTiming s) (countDown s) := by rw [elapse, hp]; exact if_pos ht
      rw [he, remaining_enterLow, hrem, ht]
      exact (Nat.add_sub_cancel_left ..).symm
    · have hcount : remaining (countDown s) = (s.tx.timer - 1#16).toNat + (currentTiming s).low.toNat := by
        rw [remaining, countDown_tx_phase, hp]
        rfl
      rw [elapse_of_timer_ne_one s (by rw [hp]; decide) ht, hcount, hrem]
      bv_omega
  | low =>
    have hne : s.tx.timer ≠ 0#16 := fun e => by simp [htimer.mpr e] at hp
    have hrem : remaining s = s.tx.timer.toNat := by rw [remaining, hp]
    by_cases ht : s.tx.timer = 1#16
    · have he : elapse s = completeSymbol (countDown s) := by rw [elapse, hp]; exact if_pos ht
      rw [he, hrem, ht, remaining, completeSymbol_tx_phase]
      rfl
    · have hcount : remaining (countDown s) = (s.tx.timer - 1#16).toNat := by
        rw [remaining, countDown_tx_phase, hp]
        rfl
      rw [elapse_of_timer_ne_one s (by rw [hp]; decide) ht, hcount, hrem]
      bv_omega

/-- `k` microseconds leave `k` less (10_state R50). -/
theorem remaining_elapseN (k : Nat) (s : State) (h : TxInv s) : remaining (elapseN k s) = remaining s - k := by
  induction k generalizing s with
  | zero => rfl
  | succ k ih => rw [elapseN, ih _ (elapse_txInv s h), remaining_elapse s h, Nat.sub_sub, Nat.add_comm 1 k]

/-- Where microseconds are left a phase runs (10_state R50). -/
theorem phase_ne_between_of_remaining (s : State) (h : remaining s ≠ 0) : s.tx.phase ≠ .between := by
  intro hp
  rw [remaining, hp] at h
  exact h rfl

/-! ### The pending actions do not matter to a microsecond -/

/-- The completion of a symbol and the taking of an action commute. -/
theorem completeSymbol_dropAction (q : List HostAction) (s : State) :
    completeSymbol (dropAction q s) = dropAction q (completeSymbol s) := by
  rw [completeSymbol, completeSymbol, endIfDone_eq, endIfDone_eq]
  rfl

/-- The begin of a low phase and the taking of an action commute. -/
theorem enterLow_dropAction (q : List HostAction) (t : SymbolTiming) (s : State) :
    enterLow t (dropAction q s) = dropAction q (enterLow t s) := by
  unfold enterLow
  split_ifs
  · exact completeSymbol_dropAction q s
  · rfl

/-- The begin of a symbol and the taking of an action commute. -/
theorem enterSymbol_dropAction (q : List HostAction) (t : SymbolTiming) (s : State) :
    enterSymbol t (dropAction q s) = dropAction q (enterSymbol t s) := by
  unfold enterSymbol
  split_ifs
  · exact enterLow_dropAction q t s
  · rfl

/-- A microsecond and the taking of an action commute. -/
theorem elapse_dropAction (q : List HostAction) (s : State) : elapse (dropAction q s) = dropAction q (elapse s) := by
  unfold elapse
  rw [dropAction_tx]
  split
  · rfl
  · split_ifs
    · exact enterLow_dropAction q _ (countDown s)
    · rfl
  · split_ifs
    · exact completeSymbol_dropAction q (countDown s)
    · rfl

/-- Microseconds and the taking of an action commute. -/
theorem elapseN_dropAction (k : Nat) (q : List HostAction) (s : State) :
    elapseN k (dropAction q s) = dropAction q (elapseN k s) := by
  induction k generalizing s with
  | zero => rfl
  | succ k ih => rw [elapseN, elapse_dropAction, ih, elapseN]

/-! ### Runs of ticks -/

/-- The transmit clauses do not look at the pending actions. -/
theorem TxInv.dropAction {s : State} (h : TxInv s) (q : List HostAction) : TxInv (dropAction q s) := h.of_tx_eq rfl

/-- A tick inside a symbol is one microsecond (43_sequencer R182; log 9). -/
theorem step_tick_inside (s : State) (q : List HostAction) (h : TxInv s) (hr : remaining s ≠ 0)
    (hq : s.host.queue = .tick :: q) : step s = .next (dropAction q (elapse s)) := by
  have hp := phase_ne_between_of_remaining s hr
  have htick : sequencerTick (dropAction q s) = .next (elapse (dropAction q s)) := by
    simp [sequencerTick, h.busy_of_phase hp, hp]
  rw [step_of_action s _ q hq, ← elapse_dropAction]
  exact htick

/-- As many ticks as are left of a symbol, or fewer, are its microseconds (log 9). -/
theorem run_ticks_inside (k : Nat) (s : State) (rest : List HostAction) (h : TxInv s) (hk : k ≤ remaining s)
    (hq : s.host.queue = List.replicate k .tick ++ rest) : core.run k s = .next (dropAction rest (elapseN k s)) := by
  induction k generalizing s with
  | zero =>
    subst hq
    rfl
  | succ k ih =>
    let q := List.replicate k HostAction.tick ++ rest
    have hstep := step_tick_inside s q h (by omega) hq
    have hinv : TxInv (dropAction q (elapse s)) := (elapse_txInv s h).dropAction q
    have hleft : k ≤ remaining (dropAction q (elapse s)) := by
      have e : remaining (dropAction q (elapse s)) = remaining s - 1 := remaining_elapse s h
      omega
    rw [run_succ_of_step k s _ hstep, ih _ hinv hleft rfl, elapseN_dropAction]
    rfl

/-- A running PLAY stands between symbols at an entry of timing `t`. -/
structure AtTiming (s : State) (t : SymbolTiming) : Prop where
  inv : TxInv s
  busy : s.tx.txBusy = true
  phase : s.tx.phase = .between
  timed : (readSeq s.tx.seq s.tx.seqPc.toNat).bind timing = some t

/-- The current timing is that of the entry (43_sequencer R186). -/
theorem AtTiming.currentTiming_eq {s : State} {t : SymbolTiming} (h : AtTiming s t) : currentTiming s = t := by
  rw [currentTiming, h.timed, Option.getD_some]

/-- The microsecond of a running PLAY between symbols: it begins the entry's symbol, or aborts where it has no timing
(43_sequencer R182, R193). -/
theorem sequencerTick_at_entry (s : State) (c : SymCode) (h : Running s) (hp : s.tx.phase = .between)
    (hc : readSeq s.tx.seq s.tx.seqPc.toNat = some c) :
    (∀ t, timing c = some t → sequencerTick s = .next (elapse (enterSymbol t s))) ∧
      (timing c = none → sequencerTick s = .next (abortPlay s)) := by
  obtain ⟨c', hc', -, hf⟩ := h.fetch
  obtain rfl : c = c' := Option.some.inj (hc.symm.trans hc')
  have hlt := h.pc_lt
  have hle : ¬ s.tx.seqLen.toNat ≤ s.tx.seqPc.toNat := by omega
  constructor
  · intro t ht
    simp [sequencerTick, h.busy, hp, hle, hf, ht]
  · intro ht
    simp [sequencerTick, h.busy, hp, hle, hf, ht]

/-- Ticks from the begin of a symbol on, no more than it lasts, are its microseconds (log 9). -/
theorem run_ticks_of_symbol (k : Nat) (s : State) (t : SymbolTiming) (rest : List HostAction) (h : AtTiming s t)
    (hpos : 0 < k) (hk : k ≤ max 1 (t.high.toNat + t.low.toNat))
    (hq : s.host.queue = List.replicate k .tick ++ rest) :
    core.run k s = .next (dropAction rest (elapseN k (enterSymbol t s))) := by
  obtain ⟨k, rfl⟩ := Nat.exists_eq_succ_of_ne_zero (Nat.ne_of_gt hpos)
  let q := List.replicate k HostAction.tick ++ rest
  obtain ⟨c, hc, ht⟩ := Option.bind_eq_some_iff.mp h.timed
  have hrun := h.inv.running h.busy
  have hstep : step s = .next (dropAction q (elapse (enterSymbol t s))) := by
    rw [step_of_action s .tick q hq, ← elapse_dropAction, ← enterSymbol_dropAction]
    exact (sequencerTick_at_entry (dropAction q s) c ((h.inv.dropAction q).running h.busy) h.phase hc).1 t ht
  have henter := enterSymbol_txInv t s hrun
  have hinv : TxInv (dropAction q (elapse (enterSymbol t s))) := (elapse_txInv _ henter).dropAction q
  have hleft : k ≤ remaining (dropAction q (elapse (enterSymbol t s))) := by
    have e : remaining (dropAction q (elapse (enterSymbol t s))) = remaining (enterSymbol t s) - 1 :=
      remaining_elapse _ henter
    rw [remaining_enterSymbol t s h.currentTiming_eq] at e
    omega
  rw [run_succ_of_step k s _ hstep, run_ticks_inside k _ rest hinv hleft rfl, elapseN_dropAction]
  rfl

/-- The sequencer's turn inside a symbol finishes it (43_sequencer R184). -/
theorem sequencerTurn_inside (s : State) (h : TxInv s) (hr : remaining s ≠ 0) :
    sequencerTurn s = .settled (.next (finishSymbol s)) := by
  have hp := phase_ne_between_of_remaining s hr
  simp [sequencerTurn, h.busy_of_phase hp, hp]

/-- The turn after some ticks of a symbol ends in the symbol played whole, whatever is pending then (43_sequencer R182). -/
theorem turn_after_ticks (k : Nat) (s : State) (t : SymbolTiming) (q : List HostAction) (h : AtTiming s t)
    (hk : k < t.high.toNat + t.low.toNat) :
    sequencerTurn (dropAction q (elapseN k (enterSymbol t s))) =
      .settled (.next (Ref.afterSymbol t { s with host.queue := q })) := by
  have henter := enterSymbol_txInv t s (h.inv.running h.busy)
  have hleft : remaining (dropAction q (elapseN k (enterSymbol t s))) = t.high.toNat + t.low.toNat - k := by
    rw [← remaining_enterSymbol t s h.currentTiming_eq]
    exact remaining_elapseN k _ henter
  rw [sequencerTurn_inside _ ((elapseN_txInv k _ henter).dropAction q) (by omega), finishSymbol, hleft,
    elapseN_dropAction, ← elapseN_add, Nat.add_sub_cancel' (Nat.le_of_lt hk),
    elapseN_symbol t s h.currentTiming_eq, playSymbol_eq_afterSymbol]
  rfl

/-- Settles O45: the countdown of each phase is its delay, and pending ticks are that countdown step by step. -/
theorem microsecondTicksEqualTheWholeSymbol : Obligations.MicrosecondTicksEqualTheWholeSymbol := by
  unfold Obligations.MicrosecondTicksEqualTheWholeSymbol
  refine ⟨?operations, ?steps, ?abort⟩
  case operations =>
    intro s c t hc ht
    exact elapseN_symbol t s (by rw [currentTiming, hc, Option.bind_some, ht, Option.getD_some])
  case steps =>
    intro s t hs hb hp htimed
    have h : AtTiming s t := ⟨((inv_iff s).mp hs).1, hb, hp, htimed⟩
    refine ⟨fun rest hq => ?_, fun k rest hpos hk hq => ?_, fun k hpos hk hq => ?_⟩
    · rw [run_ticks_of_symbol _ s t rest h (by omega) le_rfl hq,
        elapseN_symbol_of_le _ t s h.currentTiming_eq (le_max_right _ _), playSymbol_eq_afterSymbol]
      rfl
    · have hticks := run_ticks_of_symbol k s t _ h hpos (by omega) hq
      have hstep : step (dropAction (.pass :: rest) (elapseN k (enterSymbol t s))) =
          .next (Ref.afterSymbol t { s with host.queue := rest }) := by
        have hturn := turn_after_ticks k s t rest h hk
        exact (step_of_action _ .pass rest rfl).trans (congrArg Turn.outcome hturn)
      rw [run_add k 1 s _ hticks, run_succ_of_step 0 _ _ hstep]
      rfl
    · have hticks := run_ticks_of_symbol k s t [] h hpos (by omega) (by rw [hq, List.append_nil])
      have hstep : step (dropAction [] (elapseN k (enterSymbol t s))) =
          .next (Ref.afterSymbol t { s with host.queue := [] }) :=
        (step_of_empty_queue _ rfl).trans (congrArg Turn.outcome (turn_after_ticks k s t [] h hk))
      rw [run_add k 1 s _ hticks, run_succ_of_step 0 _ _ hstep]
      rfl
  case abort =>
    intro s rest hs hb hp hnone hq
    have hrun : Running (dropAction rest s) := (((inv_iff s).mp hs).1.dropAction rest).running hb
    obtain ⟨c, hc, -⟩ := hrun.fetch
    have hc' : readSeq s.tx.seq s.tx.seqPc.toNat = some c := hc
    rw [hc', Option.bind_some] at hnone
    exact (step_of_action s _ rest hq).trans ((sequencerTick_at_entry (dropAction rest s) c hrun hp hc).2 hnone)

end Sys2Proof.Machine
